-- ==== Sys2Proof/Word.lean ====
section
/-! DEFINITION. The bit widths of the IS220's bytes, words and identifiers. -/

namespace Sys2Proof

/-- A byte of the local port or of a line frame. -/
abbrev Byte := BitVec 8

/-- A configuration word (10.2). -/
abbrev Word := BitVec 32

/-- A scan id, 0..65535 (R108). -/
abbrev ScanId := BitVec 16

/-- A parcel tag, 0..255, taken from a counter modulo 256 (R85). -/
abbrev Tag := BitVec 8

/-- A 1 ms tick count, taken modulo 4,294,967,296 (R123). -/
abbrev Tick := BitVec 32

end Sys2Proof
end

