-- ==== Sys2Proof/Syntax.lean ====
section
/-! DEFINITION. The commands of the IS220: one constructor of `Instr` for each row of
spec/opcode_table.json, with the operands the rules speak of. -/

namespace Sys2Proof

/-- One of the two lanes. -/
inductive Lane
  | l0 | l1
  deriving DecidableEq, Repr

/-- One of a lane's two plan slots (R118). -/
inductive Slot
  | s0 | s1
  deriving DecidableEq, Repr

/-- Whether a parcel, claim, plan or frame covers one tray or a pair. -/
inductive Span
  | one | two
  deriving DecidableEq, Repr

/-- The stop bits of a received frame's bytes, of those bytes that the receiver does not hold already: each
reads high, one before the last byte's reads low, or the last byte's reads low (R49; log 18). -/
inductive StopBits
  | good | earlierLow | lastLow
  deriving DecidableEq, Repr

/-- The commands the part takes. Operands named `chk` and `lvl` are the levels of CHK and LVL at the
command (R9). Lane bytes and indices of messages are taken as they arrive (9.3). -/
inductive Instr
  /-- ENCODER_COUNT (R1): one loop count, forward or backward. -/
  | encoderCount (forward chk lvl : Bool)
  /-- MARKER_PULSE (R3, R4). -/
  | markerPulse (chk lvl : Bool)
  /-- MARKER_MISSING (R6). -/
  | markerMissing
  /-- WINDOW_END (R13). -/
  | windowEnd
  /-- YIELD_CHANGE (R39): the new level of YIELD. -/
  | yieldChange (asserted : Bool)
  /-- RECEIVED_FRAME_REJECTED (R50, R51): the bytes taken in, how the stop bits of those read that the receiver
  does not hold already (log 18), and whether a tenth byte began before the frame had ended. -/
  | receivedFrameRejected (bytes : List Byte) (stops : StopBits) (tenthByte : Bool)
  /-- CLAIM_HEARD (R70): sender's station and location, tray, span, and the lane in the kind code. -/
  | claimHeard (station location tray : Nat) (span : Span) (lane : Lane)
  /-- RELEASE_HEARD (R76). -/
  | releaseHeard (station location tray : Nat) (span : Span)
  /-- LOADED_HEARD (R78): with the chute and the double flag the frame carries. -/
  | loadedHeard (station location tray : Nat) (span : Span) (chute : Byte) (double : Bool)
  /-- OCCUPIED_HEARD (R79). -/
  | occupiedHeard (station location tray : Nat) (span : Span)
  /-- DEFECT_HEARD (R82). -/
  | defectHeard (station location tray : Nat) (span : Span)
  /-- FRAME_ATTEMPT_START (R58). -/
  | frameAttemptStart
  /-- ATTEMPT_COLLISION (R59): the bit of the frame, from 0, whose read-back differs. -/
  | attemptCollision (bit : Nat)
  /-- BACKOFF_EXPIRED (R60). -/
  | backoffExpired
  /-- LINE_HELD (R61). -/
  | lineHeld
  /-- FRAME_TX_COMPLETE (R62). -/
  | frameTxComplete
  /-- ENTRY_ABANDONED (R63). -/
  | entryAbandoned
  /-- ENTRY_EYE_BLOCKED (R86). -/
  | entryEyeBlocked (lane : Lane)
  /-- ENTRY_EYE_CLEAR (R87). -/
  | entryEyeClear (lane : Lane)
  /-- BELT_ENCODER_COUNT (R86). -/
  | beltEncoderCount (lane : Lane)
  /-- GAP_COUNT_REACHED (R87). -/
  | gapCountReached (lane : Lane)
  /-- MEASUREMENT_LIMIT (R88). -/
  | measurementLimit (lane : Lane)
  /-- HOLD_EYE_BLOCKED (R90). -/
  | holdEyeBlocked (lane : Lane)
  /-- LAUNCH_EYE_BLOCKED (R91). -/
  | launchEyeBlocked (lane : Lane)
  /-- TRANSFER_TIMEOUT (R92). -/
  | transferTimeout (lane : Lane)
  /-- MERGE_EYE_BLOCKED (R94). -/
  | mergeEyeBlocked (lane : Lane)
  /-- MERGE_EYE_CLEAR (R94). -/
  | mergeEyeClear (lane : Lane)
  /-- MERGE_TIMEOUT (R97). -/
  | mergeTimeout (lane : Lane)
  /-- BUTTON_PRESS (R101): the button's asserted edge. -/
  | buttonPress (lane : Lane)
  /-- BUTTON_FILTER_ELAPSED (R101). -/
  | buttonFilterElapsed (lane : Lane)
  /-- GO_PULSE (R143). -/
  | goPulse (lane : Lane)
  /-- GO_PULSE_END (R143). -/
  | goPulseEnd (lane : Lane)
  /-- WAIT_BLINK (R144). -/
  | waitBlink (lane : Lane)
  /-- TRANSACTION_BYTE (R146). -/
  | transactionByte (byte : Byte)
  /-- PUT_BYTE (R147). -/
  | putByte (byte : Byte)
  /-- TAKE_BYTE (R153). -/
  | takeByte
  /-- PARSER_BYTE (R148). -/
  | parserByte
  /-- SCAN (R108). -/
  | scan (lane : Byte) (id : ScanId) (chute flags : Byte)
  /-- START (R105). -/
  | start (lane : Byte)
  /-- STOP (R105). -/
  | stop (lane : Byte)
  /-- PAUSE (R105). -/
  | pause (lane : Byte)
  /-- RESUME (R105). -/
  | resume (lane : Byte)
  /-- SET_POINTER (R158). -/
  | setPointer (index : Byte)
  /-- LOAD_WORD (R158). -/
  | loadWord (value : Word)
  /-- LOAD_WORD_NEXT (R158). -/
  | loadWordNext (value : Word)
  /-- APPLY (R159). -/
  | apply
  /-- APPLY_COMPLETE (R162). -/
  | applyComplete
  /-- JOIN (R163). -/
  | join
  /-- LEAVE (R164). -/
  | leave
  /-- LEAVING_END (R165). -/
  | leavingEnd
  /-- READ_TRAY (R45). -/
  | readTray (tray : BitVec 16)
  /-- CLEAR_DEFECT (R37). -/
  | clearDefect (tray : BitVec 16)
  /-- IDENTIFY (R150). -/
  | identify
  /-- CLEAR_FLAGS (R150). -/
  | clearFlags
  /-- RESET (R151). -/
  | reset
  /-- RESET_LINE (R166): RSTN is asserted. -/
  | resetLine
  /-- SELECT_PERIOD_START (R146): falling edge of SCS. -/
  | selectPeriodStart
  /-- SELECT_PERIOD_END (R146): rising edge of SCS. -/
  | selectPeriodEnd
  /-- RESET_LINE_RELEASED (R151). -/
  | resetLineReleased
  /-- RECEIVER_ENTERS_HUNTING (R49). -/
  | receiverEntersHunting
  deriving DecidableEq, Repr

end Sys2Proof
end

