-- ==== Sys2Proof/Config.lean ====
section
/-! DEFINITION. What the part fixes as constants, and the one free value of the model. -/

namespace Sys2Proof.Config

/-- FREE VALUE. Where the manual leaves an order or a value open and the part goes on, the choice is
taken from here, applied to a counter in State that moves at every choice (log 4). No body: nothing
can be proved of what it is. -/
opaque free : Nat → Nat

/-- Minimum parcel length in lane counts (5.1, R87). -/
def minLength : Nat := 100

/-- Measurement limit in lane counts (5.1, R88). -/
def measureLimit : Nat := 3000

/-- Records in the pool shared by the lanes (R85). -/
def poolSize : Nat := 16

/-- Misses that make a parcel unplaceable (R98). -/
def missLimit : Nat := 4

/-- Entries of the transmit queue (R53). -/
def txCapacity : Nat := 8

/-- Entries that must be free for a CLAIM to be placed (R54). -/
def claimRoom : Nat := 3

/-- Failed attempts at which an entry is abandoned (R60, R63). -/
def attemptLimit : Nat := 16

/-- Bit times of high level after which the line is idle (R47). -/
def idleBits : Nat := 24

/-- Bytes of the inbound FIFO (R147). -/
def inboundCapacity : Nat := 64

/-- Bytes of the report FIFO (R152). -/
def reportCapacity : Nat := 128

/-- Free bytes at which READY reads set (R154). -/
def readyRoom : Nat := 16

/-- Length of a speed window in ms (R13). -/
def windowMs : Nat := 100

/-- Greatest speed (R13). -/
def vsMax : Nat := 600

/-- Bound of the window count, both ways (1.1). -/
def windowCountMax : Nat := 65535

/-- Time an APPLY takes in ms (R159). -/
def applyMs : Nat := 2

/-- Release time of the button filter in ms (R101). -/
def filterMs : Nat := 20

/-- Time a GO pulse, and the lit part of the WAIT blink, lasts in ms (R143, R144). -/
def pulseMs : Nat := 250

/-- Period of the WAIT blink in ms (R144). -/
def blinkMs : Nat := 1000

/-- The cadence table, in ms (8.1). -/
def cadence : List Nat :=
  [500, 600, 700, 800, 900, 1000, 1200, 1400, 1600, 1800, 2000, 2500, 3000, 4000, 5000, 6000]

/-- The slowest cadence entry (R141). -/
def slowestEntry : Nat := 15

/-- Start mark of a line frame (3.3). -/
def startMark : Byte := 0x96

/-- Generator of the frame check, x^16 left out (3.3). -/
def crcPoly : BitVec 16 := 0x3D65

/-- Number of configuration words (10.2). -/
def wordCount : Nat := 48

end Sys2Proof.Config
end

