-- ==== Sys2Proof/Machine/State.lean ====
section
/-! DEFINITION. The state of the IS220, block by block, as plain data, and the state after reset. -/

namespace Sys2Proof.Machine

/-- No command of this block ends in a fault: the manual gives every command an effect. -/
inductive Fault : Type
  deriving DecidableEq, Repr

/-- Why a command has no meaning. -/
inductive Refusal
  /-- Raised by `exec` for a command not modelled yet (no arm of it does). Safe: the model stops. -/
  | notModelled (mnemonic : String)
  deriving DecidableEq, Repr

/-! ### Containers -/

/-- One value for each lane. -/
structure Two (α : Type) where
  l0 : α
  l1 : α
  deriving DecidableEq, Repr

/-- One value for each lane and plan slot. -/
structure Four (α : Type) where
  l0s0 : α
  l0s1 : α
  l1s0 : α
  l1s1 : α
  deriving DecidableEq, Repr

/-! ### Loop Tracker (chapter 1) -/

/-- Lock state (1.3). -/
inductive Lock
  | unlocked | locked | coasting
  deriving DecidableEq, Repr

/-- Motion state (R14). -/
inductive Motion
  | moving | stopped
  deriving DecidableEq, Repr

/-- What the Loop Tracker counts (1.1); its trigger and aim entries stand beside it in `State`. -/
structure LoopTracker where
  lock : Lock
  S : Nat
  backlog : Nat
  frontier : Nat
  travel : Nat
  missing : Nat
  windowCount : Int
  windowTimer : Nat
  vs : Nat
  overspeed : Bool
  standstill : Nat
  motion : Motion
  deriving DecidableEq, Repr

/-! ### Tray Map (chapter 2) -/

/-- Condition of a tray record (2.1). -/
inductive Cond
  | learning | opened | heldAhead | heldBehind | loadedAhead | stray | own | passed | defective
  deriving DecidableEq, Repr

/-- What this pass's check event found (2.1). -/
inductive Seen
  | none | free | occupied
  deriving DecidableEq, Repr

/-- A plan reference: lane and parcel tag (2.1). -/
structure PlanRef where
  lane : Lane
  tag : Tag
  deriving DecidableEq, Repr

/-- A tray record (2.1). `Cond.opened` is the manual's OPEN. -/
structure TrayRec where
  cond : Cond
  seen : Seen
  holder : Option Nat
  partner : Option Nat
  plan : Option PlanRef
  deriving DecidableEq, Repr

/-- The record of a tray of which nothing is known (R20, R21). -/
def TrayRec.fresh : TrayRec :=
  { cond := .learning, seen := .none, holder := none, partner := none, plan := none }

/-! ### Line Interface (chapter 3) -/

/-- Kind of a queued frame, with what the kind carries beside tray and span (3.1). -/
inductive FrameKind
  | claim (lane : Lane)
  | release
  | loaded (chute : Byte) (double : Bool)
  | occupied
  | defect
  deriving DecidableEq, Repr

/-- Phase of a queue entry (3.1). -/
inductive Phase
  | waiting | sending
  deriving DecidableEq, Repr

/-- An entry of the transmit queue (3.1). `ended` marks a CLAIM whose plan has ended while it is
being sent (R56). -/
structure TxEntry where
  kind : FrameKind
  tray : Nat
  span : Span
  plan : Option PlanRef
  phase : Phase
  ended : Bool
  deriving DecidableEq, Repr

/-- Receiver state (R49). -/
inductive Receiver
  | hunting | receiving | discarding
  deriving DecidableEq, Repr

/-- The Line Interface's counts and receiver (3.1); its queue stands beside it in `State`. -/
structure LineIf where
  enabled : Bool
  attempt : Nat
  backoff : Nat
  idleRun : Nat
  holdCount : Nat
  rx : Receiver
  rxBuf : List Byte
  rxFault : Bool
  deriving DecidableEq, Repr

/-! ### Lane Controllers (chapters 5 and 6) -/

/-- Lane state (5.2). -/
inductive LaneState
  | stopped | running | paused | blocked | fault
  deriving DecidableEq, Repr

/-- Reason of a LANE report (5.2). -/
inductive LaneReason
  | command | button | station | overlength | touching | overfill | unplaceable | stranded
  | transferTimeout | mergeTimeout | leadRange
  deriving DecidableEq, Repr

/-- Reason of a block (R99). -/
inductive BlockReason
  | overlength | touching | overfill | unplaceable | stranded
  deriving DecidableEq, Repr

/-- Place of a parcel (5.3). -/
inductive Place
  | measuring | queued | holding | transferring | ready | launching
  deriving DecidableEq, Repr

/-- A scan as it arrived (6.1). -/
structure Scan where
  id : ScanId
  chute : Byte
  noRead : Bool
  multiRead : Bool
  deriving DecidableEq, Repr

/-- A resolved destination (R113). -/
structure Dest where
  chute : Byte
  noRead : Bool
  deriving DecidableEq, Repr

/-- A parcel record (5.3). `holdTick` is the Launch Planner's hold time for the parcel (7.1). -/
structure Parcel where
  tag : Tag
  length : Option Nat
  span : Option Span
  place : Place
  scan : Option Scan
  dest : Option Dest
  misses : Nat
  planSlot : Option Slot
  named : Option BlockReason
  holdTick : Option Tick
  deriving DecidableEq, Repr

/-- A launch entry (5.1). -/
structure Launch where
  tray : Nat
  span : Span
  double : Bool
  mergeSeen : Bool
  aborted : Bool
  timer : Nat
  deriving DecidableEq, Repr

/-- What a Lane Controller holds (5.1). `gapTest` holds the tag of the record that armed the test. -/
structure LaneCtl where
  state : LaneState
  reason : LaneReason
  parcels : List Parcel
  tagCounter : Tag
  gapCount : Nat
  gapTest : Option Tag
  measure : Nat
  feed : Bool
  transfer : Option Nat
  launch : Option Launch
  removal : Bool
  early : Option Scan
  buttonFilter : Nat
  deriving DecidableEq, Repr

/-! ### Launch Planner (chapter 7) -/

/-- State of a plan (7.1). -/
inductive PlanState
  | tentative | claimed | launched
  deriving DecidableEq, Repr

/-- A plan (7.1); its lane and slot are its place in `State.plans`. -/
structure Plan where
  tag : Tag
  span : Span
  target : Nat
  aim : Nat
  lead : Nat
  trigger : Nat
  state : PlanState
  double : Bool
  aimReached : Bool
  deriving DecidableEq, Repr

/-- What the Launch Planner holds beside its plans (7.1). -/
structure Planner where
  suspended : Two Bool
  arbiter : Lane
  deriving DecidableEq, Repr

/-! ### Pace Generator (chapter 8) -/

/-- Aspect of a lane (R142). -/
inductive Aspect
  | go | wait | stop | off
  deriving DecidableEq, Repr

/-- What the Pace Generator holds for one lane (8.1). -/
structure PaceLane where
  index : Nat
  valid : Bool
  hyst : Nat
  aspect : Aspect
  pulse : Nat
  blink : Nat
  deriving DecidableEq, Repr

/-- What the Pace Generator holds (8.1). -/
structure Pace where
  target : Option Nat
  lanes : Two PaceLane
  deriving DecidableEq, Repr

/-! ### Local Port (chapter 9) -/

/-- Select state (R146). -/
inductive Select
  | idle | awaiting | put | take | status | ignoring
  deriving DecidableEq, Repr

/-- A message in assembly: its code and the bytes after it (R148). -/
structure Assembly where
  code : Byte
  bytes : List Byte
  deriving DecidableEq, Repr

/-- The inbound half of the Local Port (9.1). `sdo` is the byte last shifted out. -/
structure LocalPort where
  select : Select
  inbound : List Byte
  assembly : Option Assembly
  commandError : Bool
  sdo : Byte
  deriving DecidableEq, Repr

/-- The report half of the Local Port (9.1). -/
structure ReportPort where
  fifo : List Byte
  lost : Bool
  deriving DecidableEq, Repr

/-! ### Configuration Table (chapter 10) -/

/-- Station state (10.1). -/
inductive Station
  | unconfigured | applying | configured | online | leaving
  deriving DecidableEq, Repr

/-- Forty-eight configuration words (10.2). -/
abbrev Words := Vector Word 48

/-- An APPLY in progress (R159): the copy under validation, whether it was taken in CONFIGURED, and
the time since. -/
structure Applying where
  copy : Words
  fromConfigured : Bool
  timer : Nat
  deriving DecidableEq, Repr

/-- The Configuration Table (R158, R159). -/
structure ConfigTable where
  working : Words
  pointer : Nat
  committed : Words
  station : Station
  applying : Option Applying
  deriving DecidableEq, Repr

/-! ### Lines (00_scope.md) -/

/-- Levels of the input lines that a rule reads. -/
structure Pins where
  chk : Bool
  lvl : Bool
  entryEye : Two Bool
  mergeEye : Two Bool
  button : Two Bool
  yieldIn : Bool
  scsLow : Bool
  rstLow : Bool
  deriving DecidableEq, Repr

/-- Levels of the output lines (SDO is `LocalPort.sdo`). -/
structure Outs where
  drvEn : Two Bool
  drvHd : Two Bool
  drvLn : Two Bool
  lampGo : Two Bool
  lampStop : Two Bool
  lampRemove : Two Bool
  attnLow : Bool
  deriving DecidableEq, Repr

/-! ### The whole -/

/-- The state of the IS220. `tick`, `freeCount` and `pending` are the model's own (logs 15, 4, 30). -/
structure State where
  loop : LoopTracker
  trig : Four (Option Nat)
  aims : Four (Option Nat)
  trays : List TrayRec
  doubt : Nat
  line : LineIf
  txq : List TxEntry
  lanes : Two LaneCtl
  plans : Four (Option Plan)
  planner : Planner
  pace : Pace
  port : LocalPort
  rep : ReportPort
  table : ConfigTable
  pins : Pins
  outs : Outs
  tick : Tick
  freeCount : Nat
  pending : List Instr
  deriving DecidableEq, Repr

/-- A container with one value everywhere. -/
def Two.all {α : Type} (a : α) : Two α := ⟨a, a⟩

/-- A container with one value everywhere. -/
def Four.all {α : Type} (a : α) : Four α := ⟨a, a, a, a⟩

/-- R16. -/
def LoopTracker.reset : LoopTracker :=
  { lock := .unlocked, S := 0, backlog := 0, frontier := 0, travel := 0, missing := 0,
    windowCount := 0, windowTimer := 0, vs := 0, overspeed := false, standstill := 3,
    motion := .stopped }

/-- R66; the idle run is the model's value (DESIGN CHOICE, log 11). -/
def LineIf.reset : LineIf :=
  { enabled := false, attempt := 0, backoff := 0, idleRun := 0, holdCount := 0,
    rx := .discarding, rxBuf := [], rxFault := false }

/-- R107; the state reason is the model's value (DESIGN CHOICE, log 14). -/
def LaneCtl.reset : LaneCtl :=
  { state := .stopped, reason := .command, parcels := [], tagCounter := 0, gapCount := 0,
    gapTest := none, measure := 0, feed := false, transfer := none, launch := none,
    removal := false, early := none, buttonFilter := 0 }

/-- R118. -/
def Planner.reset : Planner := { suspended := .all false, arbiter := .l1 }

/-- R145. -/
def PaceLane.reset : PaceLane :=
  { index := 15, valid := false, hyst := 0, aspect := .off, pulse := 0, blink := 0 }

/-- R145. -/
def Pace.reset : Pace := { target := none, lanes := .all .reset }

/-- R157; SDO low (R151). -/
def LocalPort.reset : LocalPort :=
  { select := .idle, inbound := [], assembly := none, commandError := false, sdo := 0 }

/-- R157. -/
def ReportPort.reset : ReportPort := { fifo := [], lost := false }

/-- R166. -/
def ConfigTable.reset : ConfigTable :=
  { working := Vector.replicate 48 0, pointer := 0, committed := Vector.replicate 48 0,
    station := .unconfigured, applying := none }

/-- Input levels at power-on (DESIGN CHOICE, log 10). -/
def Pins.reset : Pins :=
  { chk := false, lvl := false, entryEye := .all false, mergeEye := .all false,
    button := .all false, yieldIn := false, scsLow := false, rstLow := false }

/-- Drives off (R107), lamps dark (R145), ATTN released (R157). -/
def Outs.reset : Outs :=
  { drvEn := .all false, drvHd := .all false, drvLn := .all false, lampGo := .all false,
    lampStop := .all false, lampRemove := .all false, attnLow := false }

/-- The part right after reset (R166 and the rules it names). -/
def State.reset : State :=
  { loop := .reset, trig := .all none, aims := .all none, trays := [], doubt := 0,
    line := .reset, txq := [], lanes := .all .reset, plans := .all none, planner := .reset,
    pace := .reset, port := .reset, rep := .reset, table := .reset, pins := .reset,
    outs := .reset, tick := 0, freeCount := 0, pending := [] }

end Sys2Proof.Machine
end

