-- ==== Sys2Proof/Machine/Ops.lean ====
section
/-! DEFINITION. Named operations over the parts of State: containers, one setter a field, tray and
parcel records, the transmit queue's places, free choices. Everything else changes State through them. -/

namespace Sys2Proof.Machine

/-! ### Containers -/

def Two.get {α : Type} (t : Two α) : Lane → α
  | .l0 => t.l0
  | .l1 => t.l1

def Two.set {α : Type} (t : Two α) (l : Lane) (a : α) : Two α :=
  match l with
  | .l0 => { t with l0 := a }
  | .l1 => { t with l1 := a }

def Four.get {α : Type} (f : Four α) : Lane → Slot → α
  | .l0, .s0 => f.l0s0
  | .l0, .s1 => f.l0s1
  | .l1, .s0 => f.l1s0
  | .l1, .s1 => f.l1s1

def Four.set {α : Type} (f : Four α) (l : Lane) (sl : Slot) (a : α) : Four α :=
  match l, sl with
  | .l0, .s0 => { f with l0s0 := a }
  | .l0, .s1 => { f with l0s1 := a }
  | .l1, .s0 => { f with l1s0 := a }
  | .l1, .s1 => { f with l1s1 := a }

/-- The lane other than the given one. -/
def otherLane : Lane → Lane
  | .l0 => .l1
  | .l1 => .l0

/-- The slot other than the given one. -/
def otherSlot : Slot → Slot
  | .s0 => .s1
  | .s1 => .s0

/-- Both lanes, lane 0 first. -/
def bothLanes : List Lane := [.l0, .l1]

/-- Every lane and slot. -/
def allSlots : List (Lane × Slot) := [(.l0, .s0), (.l0, .s1), (.l1, .s0), (.l1, .s1)]

/-- A lane byte names lane 0 or 1, or no lane (R105, R108). -/
def laneOfByte (b : Byte) : Option Lane :=
  if b = 0 then some .l0 else if b = 1 then some .l1 else none

/-- A lane's number. -/
def laneNumber : Lane → Nat
  | .l0 => 0
  | .l1 => 1

/-! ### One setter a field of State -/

def State.modLoop (s : State) (f : LoopTracker → LoopTracker) : State := { s with loop := f s.loop }
def State.setTrig (s : State) (v : Four (Option Nat)) : State := { s with trig := v }
def State.setAims (s : State) (v : Four (Option Nat)) : State := { s with aims := v }
def State.setTrays (s : State) (v : List TrayRec) : State := { s with trays := v }
def State.setDoubt (s : State) (v : Nat) : State := { s with doubt := v }
def State.modLine (s : State) (f : LineIf → LineIf) : State := { s with line := f s.line }
def State.setTxq (s : State) (v : List TxEntry) : State := { s with txq := v }
def State.setLanes (s : State) (v : Two LaneCtl) : State := { s with lanes := v }
def State.setPlans (s : State) (v : Four (Option Plan)) : State := { s with plans := v }
def State.modPlanner (s : State) (f : Planner → Planner) : State :=
  { s with planner := f s.planner }
def State.modPace (s : State) (f : Pace → Pace) : State := { s with pace := f s.pace }
def State.modPort (s : State) (f : LocalPort → LocalPort) : State := { s with port := f s.port }
def State.modRep (s : State) (f : ReportPort → ReportPort) : State := { s with rep := f s.rep }
def State.modTable (s : State) (f : ConfigTable → ConfigTable) : State :=
  { s with table := f s.table }
def State.modPins (s : State) (f : Pins → Pins) : State := { s with pins := f s.pins }
def State.setOuts (s : State) (v : Outs) : State := { s with outs := v }
def State.setFreeCount (s : State) (v : Nat) : State := { s with freeCount := v }

/-- One lane's Lane Controller. -/
def State.lane (s : State) (l : Lane) : LaneCtl := s.lanes.get l

/-- Changes one lane's Lane Controller. -/
def State.modLane (s : State) (l : Lane) (f : LaneCtl → LaneCtl) : State :=
  s.setLanes (s.lanes.set l (f (s.lanes.get l)))

/-- One plan slot. -/
def State.plan (s : State) (l : Lane) (sl : Slot) : Option Plan := s.plans.get l sl

/-- Writes one plan slot. -/
def State.setPlan (s : State) (l : Lane) (sl : Slot) (p : Option Plan) : State :=
  s.setPlans (s.plans.set l sl p)

/-- Changes one lane's pace. -/
def State.modPaceLane (s : State) (l : Lane) (f : PaceLane → PaceLane) : State :=
  s.modPace fun p => { p with lanes := p.lanes.set l (f (p.lanes.get l)) }

/-! ### Free choices (log 4) -/

/-- Takes the element at place `n` out of a list. -/
def takeNth {α : Type} : Nat → List α → Option (α × List α)
  | _, [] => none
  | 0, a :: as => some (a, as)
  | n + 1, a :: as =>
    match takeNth n as with
    | some (b, bs) => some (b, a :: bs)
    | none => none

/-- The permutation of a list that the number `k` names; the first argument bounds the length. -/
def permuteBy {α : Type} : Nat → Nat → List α → List α
  | 0, _, l => l
  | n + 1, k, l =>
    match takeNth (k % l.length) l with
    | some (a, rest) => a :: permuteBy n (k / l.length) rest
    | none => l

/-- FREE VALUE. An order the manual leaves open: a list of one thing or none has one order; of two
or more the order is free. -/
def State.freeOrder {α : Type} (s : State) (l : List α) : List α :=
  if l.length ≤ 1 then l else permuteBy l.length (Config.free s.freeCount) l

/-- The state after `freeOrder` has been taken on a list: the counter moves if a choice was made. -/
def State.afterOrder {α : Type} (s : State) (l : List α) : State :=
  if l.length ≤ 1 then s else s.setFreeCount (s.freeCount + 1)

/-- FREE VALUE. A choice between two courses that the manual leaves open. -/
def State.freeBit (s : State) : Bool := Config.free s.freeCount % 2 == 0

/-- The state after a free choice. -/
def State.bumpFree (s : State) : State := s.setFreeCount (s.freeCount + 1)

/-! ### Tray records -/

/-- The record of tray `k`, if there is one. -/
def State.tray? (s : State) (k : Nat) : Option TrayRec := s.trays[k]?

/-- Changes the record of tray `k`. -/
def State.modTray (s : State) (k : Nat) (f : TrayRec → TrayRec) : State :=
  s.setTrays (s.trays.modify k f)

/-- Removes the partner field of a record when it names tray `k`. R18 removes it "from both records" of a
pair; where the records do not name each other, which R68 can bring about, the field of a record that names
another tray is kept (DESIGN CHOICE, log 38). -/
def TrayRec.unpair (k : Nat) (r : TrayRec) : TrayRec :=
  if r.partner = some k then { r with partner := none } else r

/-- Gives tray `k` another condition, holder and seen state, without plan reference, and takes the
pair apart: the partner field leaves both records (R18). -/
def State.recond (s : State) (k : Nat) (c : Cond) (seen : Seen) (holder : Option Nat) : State :=
  match s.tray? k with
  | none => s
  | some r =>
    let s1 :=
      match r.partner with
      | some j => s.modTray j (TrayRec.unpair k)
      | none => s
    s1.modTray k fun _ =>
      { cond := c, seen := seen, holder := holder, partner := none, plan := none }

/-- Sets the seen state of tray `k` and nothing else. -/
def State.setSeen (s : State) (k : Nat) (seen : Seen) : State :=
  s.modTray k fun r => { r with seen := seen }

/-- Makes two trays each other's span partner (R18). -/
def State.pairUp (s : State) (k j : Nat) : State :=
  (s.modTray k fun r => { r with partner := some j }).modTray j
    fun r => { r with partner := some k }

/-! ### Parcel records -/

/-- The record of a lane's list with the given tag. -/
def LaneCtl.parcel? (c : LaneCtl) (t : Tag) : Option Parcel := c.parcels.find? fun r => r.tag == t

/-- Changes the record with the given tag. -/
def LaneCtl.modParcel (c : LaneCtl) (t : Tag) (f : Parcel → Parcel) : LaneCtl :=
  { c with parcels := c.parcels.map fun r => if r.tag = t then f r else r }

/-- The record leaves the list (R85). -/
def LaneCtl.dropParcel (c : LaneCtl) (t : Tag) : LaneCtl :=
  { c with parcels := c.parcels.filter fun r => r.tag != t }

/-- The oldest record at a place. -/
def LaneCtl.at? (c : LaneCtl) (p : Place) : Option Parcel := c.parcels.find? fun r => r.place == p

/-- The record that holds a plan slot (R93). -/
def LaneCtl.bySlot? (c : LaneCtl) (sl : Slot) : Option Parcel :=
  c.parcels.find? fun r => r.planSlot == some sl

/-- Changes the record with the given tag on a lane. -/
def State.modParcel (s : State) (l : Lane) (t : Tag) (f : Parcel → Parcel) : State :=
  s.modLane l fun c => c.modParcel t f

/-- The measurement in progress: the MEASURING record that no block names (log 20). -/
def LaneCtl.measuring? (c : LaneCtl) : Option Parcel :=
  c.parcels.find? fun r => r.place == .measuring && r.named.isNone

/-- Whether a record holds the hold place (5.3). -/
def LaneCtl.holdTaken (c : LaneCtl) : Bool :=
  c.parcels.any fun r => r.place == .holding || r.place == .transferring

/-- Whether a record holds the launch place (5.3). -/
def LaneCtl.launchTaken (c : LaneCtl) : Bool :=
  c.parcels.any fun r => r.place == .transferring || r.place == .ready || r.place == .launching

/-- Entry fill: records MEASURING or QUEUED (R104). -/
def LaneCtl.entryFill (c : LaneCtl) : Nat :=
  c.parcels.countP fun r => r.place == .measuring || r.place == .queued

/-- A launch is running: a launch entry that is not aborted (R165). -/
def LaneCtl.launchRuns (c : LaneCtl) : Bool :=
  match c.launch with
  | some e => !e.aborted
  | none => false

/-- The place of a tag in a lane's list, counted from the head; the list's length if absent. -/
def LaneCtl.rank (c : LaneCtl) (t : Tag) : Nat := c.parcels.findIdx fun r => r.tag == t

/-! ### Plans -/

/-- The slot of a lane's live plan for a parcel. -/
def State.slotOf? (s : State) (l : Lane) (t : Tag) : Option Slot :=
  match s.plan l .s0, s.plan l .s1 with
  | some p, q =>
    if p.tag = t then some .s0
    else
      match q with
      | some q => if q.tag = t then some .s1 else none
      | none => none
  | none, some q => if q.tag = t then some .s1 else none
  | none, none => none

/-- The live plan a reference names. -/
def State.planOf? (s : State) (r : PlanRef) : Option Plan :=
  match s.slotOf? r.lane r.tag with
  | some sl => s.plan r.lane sl
  | none => none

/-- A lane's slots with a live plan, oldest parcel first (R132, R137, R167). -/
def State.slotsByAge (s : State) (l : Lane) : List Slot :=
  match s.plan l .s0, s.plan l .s1 with
  | some p, some q =>
    if (s.lane l).rank q.tag < (s.lane l).rank p.tag then [.s1, .s0] else [.s0, .s1]
  | some _, none => [.s0]
  | none, some _ => [.s1]
  | none, none => []

/-! ### Transmit queue -/

/-- Two kinds are the same kind, whatever lane, chute or flag they carry (R53). -/
def FrameKind.sameKind : FrameKind → FrameKind → Bool
  | .claim _, .claim _ => true
  | .release, .release => true
  | .loaded .., .loaded .. => true
  | .occupied, .occupied => true
  | .defect, .defect => true
  | _, _ => false

def FrameKind.isClaim : FrameKind → Bool
  | .claim _ => true
  | _ => false

/-- The plan a queued CLAIM carries, unless the entry is marked as of an ended plan (R56). -/
def TxEntry.livePlan? (e : TxEntry) : Option PlanRef := if e.ended then none else e.plan

/-- The attempt, backoff and hold counts of a new head are 0 (R58, R61, R62). -/
def LineIf.newHead (c : LineIf) : LineIf := { c with attempt := 0, backoff := 0, holdCount := 0 }

/-- The entry at place `i` leaves the queue; when it was the head the counts are cleared (R55, R56,
R60). -/
def State.dropEntry (s : State) (i : Nat) : State :=
  let s1 := s.setTxq (s.txq.eraseIdx i)
  if i = 0 then s1.modLine LineIf.newHead else s1

/-- An entry takes the tail; as the only entry it is a new head (R53). -/
def State.appendEntry (s : State) (e : TxEntry) : State :=
  let s1 := s.setTxq (s.txq ++ [e])
  if s.txq.isEmpty then s1.modLine LineIf.newHead else s1

end Sys2Proof.Machine
end

