-- ==== Sys2Proof/Machine/Operands.lean ====
section
/-! DEFINITION. What the rules compute from: the committed settings, loop geometry, the lead, trays
at a position, sectors and eligibility, and the form of a line frame. -/

namespace Sys2Proof.Machine

/-! ### Committed settings (10.2) -/

/-- Word `i` of forty-eight. -/
def wordAt (w : Words) (i : Nat) : Word := w[i]?.getD 0

/-- Committed word `i` as an unsigned number. -/
def State.cw (s : State) (i : Nat) : Nat := (wordAt s.table.committed i).toNat

def State.stationNumber (s : State) : Nat := s.cw 0
def State.cfgX (s : State) : Nat := s.cw 1
def State.cfgT (s : State) : Nat := s.cw 2
def State.cfgP (s : State) : Nat := s.cw 3
def State.cfgZ0 (s : State) : Nat := s.cw 4
def State.cfgZ1 (s : State) : Nat := s.cw 5
def State.cfgE (s : State) : Nat := s.cw 6
def State.cfgH (s : State) : Nat := s.cw 7
def State.cfgG (s : State) : Nat := s.cw 8
/-- The lead trim, two's complement (word 9). -/
def State.cfgTrim (s : State) : Int := (wordAt s.table.committed 9).toInt
def State.cfgC (s : State) : Nat := s.cw 10
def State.cfgSlip (s : State) : Nat := s.cw 11
def State.cfgMinSpeed (s : State) : Nat := s.cw 12
def State.cfgClaimBeforeCheck (s : State) : Bool := s.cw 13 == 1
def State.cfgDoubtDistance (s : State) : Nat := s.cw 14
def State.cfgAllow (s : State) : Nat := s.cw 15
def State.cfgYield (s : State) : Nat := s.cw 16
/-- The no-read chute (word 17). -/
def State.cfgNoRead (s : State) : Byte := BitVec.ofNat 8 (s.cw 17)
def State.cfgNominal (s : State) : Nat := s.cw 18

/-- Index of lane setting `j` (10.2). -/
def laneWord (l : Lane) (j : Nat) : Nat :=
  match l with
  | .l0 => 19 + j
  | .l1 => 28 + j

def State.cfgD (s : State) (l : Lane) : Nat := s.cw (laneWord l 0)
def State.cfgVl (s : State) (l : Lane) : Nat := s.cw (laneWord l 1)
def State.cfgCapacity (s : State) (l : Lane) : Nat := s.cw (laneWord l 2)
def State.cfgQ (s : State) (l : Lane) : Nat := s.cw (laneWord l 3)
def State.cfgSingle (s : State) (l : Lane) : Nat := s.cw (laneWord l 4)
def State.cfgDouble (s : State) (l : Lane) : Nat := s.cw (laneWord l 5)
def State.cfgMinGap (s : State) (l : Lane) : Nat := s.cw (laneWord l 6)
def State.cfgMinEntry (s : State) (l : Lane) : Nat := s.cw (laneWord l 7)

/-- A timeout field gives (f + 1) × 20 ms (5.1). -/
def timeoutMs (f : Nat) : Nat := (f + 1) * 20

/-- Transfer timeout in ms: bits 15..8 of the timeout word. -/
def State.cfgTransferMs (s : State) (l : Lane) : Nat := timeoutMs (s.cw (laneWord l 8) / 256 % 256)

/-- Merge timeout in ms: bits 7..0 of the timeout word. -/
def State.cfgMergeMs (s : State) (l : Lane) : Nat := timeoutMs (s.cw (laneWord l 8) % 256)

/-- Entry `i`, 0..19, of the initial defect list in a set of words: word 37 + i/2, high half first
(10.2). -/
def defectEntry (w : Words) (i : Nat) : Nat :=
  let v := (wordAt w (37 + i / 2)).toNat
  if i % 2 = 0 then v / 65536 % 65536 else v % 65536

/-- A committed configuration exists: before the first successful APPLY the copy is all zero, and a
validated copy has T of at least 16 (R3, R160; log 28). -/
def State.hasConfig (s : State) : Bool := s.cfgT != 0

/-- Bit `i` of a mask. -/
def bitAt (mask i : Nat) : Bool := mask / 2 ^ i % 2 == 1

/-! ### Loop geometry (00_scope.md, "Conventions") -/

/-- Loop length L = T × P. -/
def State.loopLength (s : State) : Nat := s.cfgT * s.cfgP

/-- Forward distance from `a` to `b` on a loop of length `len`. -/
def forwardDistance (len a b : Nat) : Nat := (b + (len - a % len)) % len

/-- Forward distance fd(a, b) on the committed loop. -/
def State.fd (s : State) (a b : Nat) : Nat := forwardDistance s.loopLength a b

/-- Zone offset z(x) = fd(Z0, x). -/
def State.zoneOffset (s : State) (x : Nat) : Nat := s.fd s.cfgZ0 x

/-- The sender at location `x` is ahead; the same location counts as ahead (R67). -/
def State.isAhead (s : State) (x : Nat) : Bool := decide (s.zoneOffset x ≤ s.zoneOffset s.cfgX)

/-- The tray after tray `k` (00_scope.md, "Tray numbering and order"). -/
def State.nextTray (s : State) (k : Nat) : Nat := (k + 1) % s.cfgT

/-- The trays a target and span name (R68). -/
def State.namedTrays (s : State) (k : Nat) : Span → List Nat
  | .one => [k]
  | .two => [k, s.nextTray k]

/-- How far an aim lies past the centre of its (leading) tray: 0 for a single tray, P/2, the joint,
for a pair (7.1, R125). -/
def State.aimOffset (s : State) : Span → Nat
  | .one => 0
  | .two => s.cfgP / 2

/-- Aim of a target and span (7.1). -/
def State.aimOf (s : State) (k : Nat) (sp : Span) : Nat :=
  (k * s.cfgP + s.aimOffset sp) % s.loopLength

/-- The tray whose centre position is `q`, if one has it. -/
def State.trayAt (s : State) (q : Nat) : Option Nat :=
  if s.cfgP = 0 then none else if q % s.cfgP = 0 then some (q / s.cfgP) else none

/-- The tray whose check event falls at position `p` (1.4). -/
def State.checkAt (s : State) (p : Nat) : Option Nat := s.trayAt ((p + s.cfgE) % s.loopLength)

/-- The tray whose arrival falls at position `p` (1.4). -/
def State.arrivalAt (s : State) (p : Nat) : Option Nat := s.trayAt p

/-- The tray whose zone exit falls at position `p` (1.4). -/
def State.zoneExitAt (s : State) (p : Nat) : Option Nat :=
  s.trayAt ((p + (s.loopLength - s.fd s.cfgX s.cfgZ1)) % s.loopLength)

/-- The loop has already come to a position: it equals S or lies in the backlog (R11, R12). -/
def State.alreadyReached (s : State) (p : Nat) : Bool :=
  decide (s.fd s.loop.S p ≤ s.loop.backlog)

/-- LOCKED or COASTING. -/
def State.locked (s : State) : Bool := s.loop.lock != .unlocked

/-! ### Lead (R119) -/

/-- λ of a parcel of length `len` on lane `l` at speed `vs` (R119): N = (2·D + ℓ)·vs, λ0 =
floor((N + vl) / (2·vl)), λ = λ0 + τ, at least 0. -/
def State.leadAt (s : State) (l : Lane) (len vs : Nat) : Nat :=
  let n := (2 * s.cfgD l + len) * vs
  ((Int.ofNat ((n + s.cfgVl l) / (2 * s.cfgVl l)) + s.cfgTrim)).toNat

/-- λ of a parcel at the speed of the last completed window. -/
def State.leadOf (s : State) (l : Lane) (r : Parcel) : Nat :=
  s.leadAt l (r.length.getD 0) s.loop.vs

/-! ### Sectors and eligibility (R38, R42, R43) -/

/-- Sector of tray `k`: floor(k / ceil(T / 16)) (R38). -/
def State.sectorOf (s : State) (k : Nat) : Nat := k / ((s.cfgT + 15) / 16)

/-- Tray `k`'s sector is allowed (R38). -/
def State.sectorAllowed (s : State) (k : Nat) : Bool :=
  bitAt s.cfgAllow (s.sectorOf k) && (!s.pins.yieldIn || !bitAt s.cfgYield (s.sectorOf k))

/-- Tray `k` is eligible for a new claim (R42). -/
def State.eligible (s : State) (k : Nat) : Bool :=
  match s.tray? k with
  | none => false
  | some r =>
    r.cond == .opened && s.sectorAllowed k &&
      (r.seen == .free || (s.cfgClaimBeforeCheck && s.doubt == 0))

/-- The tray, or both trays of the pair, are eligible (R42, R43). -/
def State.eligibleSpan (s : State) (k : Nat) (sp : Span) : Bool :=
  (s.namedTrays k sp).all s.eligible

/-- The Tray Map is in use (R19). -/
def State.mapInUse (s : State) : Bool :=
  s.table.station == .online || s.table.station == .leaving

/-! ### Candidates (R125, R138) -/

/-- Distance from S of the first candidate at or beyond distance `a`: positions k·P + off. -/
def State.firstCandidate (s : State) (a off : Nat) : Nat :=
  a + (off + s.cfgP - (s.loop.S + a) % s.cfgP) % s.cfgP

/-- Candidates (distance, tray) in increasing distance, P apart, up to H; `n` bounds their number. -/
def State.candidatesFrom (s : State) (off : Nat) : Nat → Nat → List (Nat × Nat)
  | 0, _ => []
  | n + 1, d =>
    if s.cfgH < d then []
    else (d, ((s.loop.S + d - off) / s.cfgP) % s.cfgT) :: s.candidatesFrom off n (d + s.cfgP)

/-- Candidates of a span at distances from λ + G to H (R125, R138). -/
def State.candidates (s : State) (lead : Nat) (sp : Span) : List (Nat × Nat) :=
  s.candidatesFrom (s.aimOffset sp) s.cfgT (s.firstCandidate (lead + s.cfgG) (s.aimOffset sp))

/-! ### Line frames (3.3, R46, R48, R50) -/

/-- What a frame says, with its kind's extras (3.3). -/
structure FrameData where
  kind : FrameKind
  station : Nat
  location : Nat
  tray : Nat
  span : Span
  deriving DecidableEq, Repr

/-- Kind code, 1..7 (3.3). -/
def FrameKind.code : FrameKind → Nat
  | .defect => 1
  | .occupied => 2
  | .loaded _ false => 3
  | .loaded _ true => 4
  | .release => 5
  | .claim .l0 => 6
  | .claim .l1 => 7

/-- Bytes of a frame of a kind code: 9 for LOADED, 8 for the others (3.3). -/
def frameLength (code : Nat) : Nat := if code = 3 ∨ code = 4 then 9 else 8

/-- One bit into the frame check. -/
def crcBit (c : BitVec 16) (b : Bool) : BitVec 16 :=
  let shifted := c <<< 1
  if c.msb != b then shifted ^^^ Config.crcPoly else shifted

/-- The bits of a byte, most significant first. -/
def byteBits (b : Byte) : List Bool :=
  [b.getLsbD 7, b.getLsbD 6, b.getLsbD 5, b.getLsbD 4, b.getLsbD 3, b.getLsbD 2, b.getLsbD 1,
    b.getLsbD 0]

/-- The frame check over bytes: initial value 0xFFFF, no final inversion (3.3). -/
def crc16 (bytes : List Byte) : BitVec 16 := (bytes.flatMap byteBits).foldl crcBit 0xFFFF

def spanBit : Span → Nat
  | .one => 0
  | .two => 1

/-- Bytes 1 to 5 of a frame, and the chute of a LOADED: what the check covers (3.3). -/
def frameBody (f : FrameData) : List Byte :=
  let head : List Byte :=
    [BitVec.ofNat 8 (f.kind.code * 32 + f.station % 32),
     BitVec.ofNat 8 (f.location / 8192 % 256),
     BitVec.ofNat 8 (f.location / 32 % 256),
     BitVec.ofNat 8 (f.location % 32 * 8 + f.tray / 128 % 8),
     BitVec.ofNat 8 (f.tray % 128 * 2 + spanBit f.span)]
  match f.kind with
  | .loaded chute _ => head ++ [chute]
  | _ => head

/-- The two bytes of a check, high byte first. -/
def crcBytes (c : BitVec 16) : List Byte := [BitVec.ofNat 8 (c.toNat / 256), BitVec.ofNat 8 c.toNat]

/-- A frame as bytes (R48). -/
def frameBytes (f : FrameData) : List Byte :=
  Config.startMark :: frameBody f ++ crcBytes (crc16 (frameBody f))

/-- Bytes as bits on the line: each a start bit 0, eight data bits, a stop bit 1 (R46). -/
def lineBits (bytes : List Byte) : List Bool := bytes.flatMap fun b => false :: byteBits b ++ [true]

/-- A frame as bits on the line (R46). -/
def frameBits (f : FrameData) : List Bool := lineBits (frameBytes f)

/-- The frame composed from a queue entry and the committed configuration (R48). -/
def State.frameOf (s : State) (e : TxEntry) : FrameData :=
  { kind := e.kind, station := s.stationNumber, location := s.cfgX, tray := e.tray, span := e.span }

/-- The byte at place `i` of a buffer as a number. -/
def byteAt (bytes : List Byte) (i : Nat) : Nat := (bytes[i]?.getD 0).toNat

/-- Kind code of a buffer: 0 when the frame ended before byte 1 was complete (R51). -/
def kindCodeOf (bytes : List Byte) : Nat := if 2 ≤ bytes.length then byteAt bytes 1 / 32 else 0

/-- The kind a kind code names, with the chute of a LOADED. -/
def kindOfCode (code : Nat) (chute : Byte) : Option FrameKind :=
  match code with
  | 1 => some .defect
  | 2 => some .occupied
  | 3 => some (.loaded chute false)
  | 4 => some (.loaded chute true)
  | 5 => some .release
  | 6 => some (.claim .l0)
  | 7 => some (.claim .l1)
  | _ => none

/-- Reason of a FRAME_REJECTED report (R50). -/
inductive FrameReject
  | length | crc | tray | location | twin
  deriving DecidableEq, Repr

/-- The fields of a buffer of good form (3.3). -/
def parseFields (bytes : List Byte) (kind : FrameKind) : FrameData :=
  { kind := kind
    station := byteAt bytes 1 % 32
    location := byteAt bytes 2 * 8192 + byteAt bytes 3 * 32 + byteAt bytes 4 / 8
    tray := byteAt bytes 4 % 8 * 128 + byteAt bytes 5 / 2
    span := if byteAt bytes 5 % 2 = 0 then .one else .two }

/-- Checks 1 and 2 of R50 on a received buffer: form, then check; the fields if both pass. -/
def parseFrame (bytes : List Byte) (fault : Bool) : Except FrameReject FrameData :=
  match kindOfCode (kindCodeOf bytes) (bytes[6]?.getD 0) with
  | none => .error .length
  | some kind =>
    if bytes[0]? ≠ some Config.startMark ∨ bytes.length ≠ frameLength (kindCodeOf bytes) then
      .error .length
    else if fault ∨
        bytes.drop (bytes.length - 2) ≠ crcBytes (crc16 ((bytes.take (bytes.length - 2)).drop 1))
    then .error .crc
    else .ok (parseFields bytes kind)

/-- Checks 3 to 5 of R50 on a frame's fields: tray, location, sender. -/
def State.fieldReject (s : State) (f : FrameData) : Option FrameReject :=
  if s.cfgT ≤ f.tray then some .tray
  else if s.loopLength ≤ f.location ∨ s.fd s.cfgZ0 s.cfgZ1 ≤ s.zoneOffset f.location then
    some .location
  else if f.station = s.stationNumber then some .twin
  else none

/-- How many bits a list of bits ends in that are 1. -/
def trailingOnes (bits : List Bool) : Nat := (bits.reverse.takeWhile id).length

/-- The idle run after the given bits, held at 24 (R47). -/
def idleRunAfter (bits : List Bool) : Nat := min Config.idleBits (trailingOnes bits)

/-- The idle run at the end found of a frame of the given bytes: the high bits it ends in, its last stop
bit among them, and the ten high bit times by which the end is found (R47). -/
def endRun (bytes : List Byte) : Nat := idleRunAfter (lineBits bytes ++ List.replicate 10 true)

end Sys2Proof.Machine
end

