-- ==== Sys2Proof/Machine/Flags.lean ====
section
/-! DEFINITION. What is computed from State and shown: the status byte (R154), ATTN (R155), the
belt drives (5.2, R90 to R97) and the lamps (R143, R144). -/

namespace Sys2Proof.Machine

/-- READY (R154). -/
def State.readyFlag (s : State) : Bool :=
  decide (s.port.inbound.length + Config.readyRoom ≤ Config.inboundCapacity)

/-- REPORT (R154). -/
def State.reportFlag (s : State) : Bool := !s.rep.fifo.isEmpty

/-- BUSY (R154): the station is APPLYING. -/
def State.busy (s : State) : Bool := s.table.station == .applying

/-- ONLINE (R154). -/
def State.online (s : State) : Bool := s.table.station == .online

/-- A flag's weight at a bit. -/
def flagBit (b : Bool) (i : Nat) : Nat := if b then 2 ^ i else 0

/-- The status byte (R154). -/
def State.statusByte (s : State) : Byte :=
  BitVec.ofNat 8 (flagBit s.readyFlag 0 + flagBit s.reportFlag 1 + flagBit s.port.commandError 2 +
    flagBit s.rep.lost 3 + flagBit s.busy 4 + flagBit s.online 5 + flagBit s.locked 6)

/-- ATTN is driven low (R155): a flag is set whose enable, bit 0, 1 or 2 of committed word 47, is. -/
def State.attnLow (s : State) : Bool :=
  (s.reportFlag && bitAt (s.cw 47) 0) || (s.port.commandError && bitAt (s.cw 47) 1) ||
    (s.rep.lost && bitAt (s.cw 47) 2)

/-- The entry belt runs: lane RUNNING and station ONLINE (5.2). -/
def State.entryBeltRuns (s : State) (l : Lane) : Bool :=
  (s.lane l).state == .running && s.online

/-- The hold belt runs for the feed or for a transfer (R90, R91). -/
def State.holdBeltRuns (s : State) (l : Lane) : Bool :=
  (s.lane l).feed || (s.lane l).transfer.isSome

/-- The launch belt runs for a transfer or a launch that is not aborted (R91, R93, R96). -/
def State.launchBeltRuns (s : State) (l : Lane) : Bool :=
  (s.lane l).transfer.isSome || (s.lane l).launchRuns

/-- The GO lamp is lit during a pulse in GO (R143). -/
def PaceLane.goLit (p : PaceLane) : Bool := p.aspect == .go && decide (p.pulse < Config.pulseMs)

/-- The STOP lamp is steady in STOP and blinks in WAIT (R144). -/
def PaceLane.stopLit (p : PaceLane) : Bool :=
  p.aspect == .stop || (p.aspect == .wait && decide (p.blink < Config.pulseMs))

/-- A value for each lane from a function of the lane. -/
def perLane {α : Type} (f : Lane → α) : Two α := ⟨f .l0, f .l1⟩

/-- The output lines as the state drives them. -/
def State.outputs (s : State) : Outs :=
  { drvEn := perLane s.entryBeltRuns
    drvHd := perLane s.holdBeltRuns
    drvLn := perLane s.launchBeltRuns
    lampGo := perLane fun l => (s.pace.lanes.get l).goLit
    lampStop := perLane fun l => (s.pace.lanes.get l).stopLit
    lampRemove := perLane fun l => (s.lane l).removal
    attnLow := s.attnLow }

/-- The end of every event: the output lines follow the state. -/
def State.drive (s : State) : State := s.setOuts s.outputs

end Sys2Proof.Machine
end

