-- ==== Sys2Proof/Machine/Reports.lean ====
section
/-! DEFINITION. The reports of the local port: their fields, codes and layouts (9.4), and R152. -/

namespace Sys2Proof.Machine

/-- Reason of a REJECTED report (9.4). -/
inductive RejectReason
  | debris | overlength | touching | unplaceable | stranded | overfill
  deriving DecidableEq, Repr

/-- Reason of a LOOP report (1.7). -/
inductive LoopReason
  | locked | coasting | lost | overspeed | stopped | moving
  deriving DecidableEq, Repr

/-- Kind of a MISMATCH report (9.4). -/
inductive MismatchKind
  | emptyLoaded | doubleLoad | tiltedTarget
  deriving DecidableEq, Repr

/-- Source of a DEFECT report (9.4). -/
inductive DefectSource
  | own | heard
  deriving DecidableEq, Repr

/-- Result of an APPLY with the word it names (9.4, R160, R161). -/
inductive ApplyResult
  | ok
  | outOfRange (word : Nat)
  | conflict (word : Nat)
  | wrongState
  deriving DecidableEq, Repr

/-- The reports (9.4). -/
inductive Report
  | inducted (lane : Lane) (tag : Tag) (scanId : ScanId) (tray : Nat) (chute : Byte) (span : Span)
      (double : Bool)
  | rejected (lane : Lane) (tag : Tag) (reason : RejectReason)
  | lane (lane : Lane) (state : LaneState) (reason : LaneReason)
  | loop (lock : Lock) (reason : LoopReason)
  | frameRejected (reason : FrameReject) (kindCode : Nat)
  | lineDropped (kindCode tray : Nat)
  | mismatch (tray : Nat) (kind : MismatchKind)
  | defect (tray : Nat) (source : DefectSource)
  | orphan (lane : Lane) (scanId : ScanId)
  | applyResult (result : ApplyResult)
  | tray (tray : Nat) (record : TrayRec)
  | id
  deriving DecidableEq, Repr

/-! ### Enumerated fields (9.4) -/

def LaneState.code : LaneState → Byte
  | .stopped => 0 | .running => 1 | .paused => 2 | .blocked => 3 | .fault => 4

def LaneReason.code : LaneReason → Byte
  | .command => 0 | .button => 1 | .station => 2 | .overlength => 3 | .touching => 4
  | .overfill => 5 | .unplaceable => 6 | .stranded => 7 | .transferTimeout => 8
  | .mergeTimeout => 9 | .leadRange => 10

def RejectReason.code : RejectReason → Byte
  | .debris => 1 | .overlength => 2 | .touching => 3 | .unplaceable => 4 | .stranded => 5
  | .overfill => 6

def Lock.code : Lock → Byte
  | .unlocked => 0 | .locked => 1 | .coasting => 2

def LoopReason.code : LoopReason → Byte
  | .locked => 0 | .coasting => 1 | .lost => 2 | .overspeed => 3 | .stopped => 4 | .moving => 5

def FrameReject.code : FrameReject → Byte
  | .length => 1 | .crc => 2 | .tray => 3 | .location => 4 | .twin => 5

def MismatchKind.code : MismatchKind → Byte
  | .emptyLoaded => 1 | .doubleLoad => 2 | .tiltedTarget => 3

def DefectSource.code : DefectSource → Byte
  | .own => 0 | .heard => 1

def ApplyResult.code : ApplyResult → Byte
  | .ok => 0 | .outOfRange _ => 1 | .conflict _ => 2 | .wrongState => 3

/-- Word index of an APPLY_RESULT: 0xFF for OK and WRONG_STATE. -/
def ApplyResult.word : ApplyResult → Byte
  | .outOfRange w => BitVec.ofNat 8 w
  | .conflict w => BitVec.ofNat 8 w
  | .ok => 0xFF
  | .wrongState => 0xFF

def Cond.code : Cond → Byte
  | .learning => 0 | .opened => 1 | .heldAhead => 2 | .heldBehind => 3 | .loadedAhead => 4
  | .stray => 5 | .own => 6 | .passed => 7 | .defective => 8

def Seen.code : Seen → Byte
  | .none => 0 | .free => 1 | .occupied => 2

def laneByte : Lane → Byte
  | .l0 => 0 | .l1 => 1

/-- A number as two bytes, most significant first. -/
def twoBytes (n : Nat) : List Byte := [BitVec.ofNat 8 (n / 256), BitVec.ofNat 8 n]

/-- Span and double of an INDUCTED report: bits 0 and 1. -/
def spanDouble (sp : Span) (double : Bool) : Byte :=
  BitVec.ofNat 8 (spanBit sp + if double then 2 else 0)

/-- A report as bytes, code first (9.4). -/
def Report.bytes : Report → List Byte
  | .inducted l t sc k ch sp d =>
      [0x81, laneByte l, t] ++ twoBytes sc.toNat ++ twoBytes k ++ [ch, spanDouble sp d]
  | .rejected l t r => [0x82, laneByte l, t, r.code]
  | .lane l st r => [0x83, laneByte l, st.code, r.code]
  | .loop k r => [0x84, k.code, r.code]
  | .frameRejected r c => [0x85, r.code, BitVec.ofNat 8 c]
  | .lineDropped c k => [0x86, 1, BitVec.ofNat 8 c] ++ twoBytes k
  | .mismatch k m => 0x87 :: twoBytes k ++ [m.code]
  | .defect k src => 0x88 :: twoBytes k ++ [src.code]
  | .orphan l sc => [0x89, laneByte l] ++ twoBytes sc.toNat
  | .applyResult r => [0x8A, r.code, r.word]
  | .tray k r =>
      0x8B :: twoBytes k ++ [r.cond.code, r.seen.code,
        match r.holder with | some h => BitVec.ofNat 8 h | none => 0xFF] ++
        (match r.partner with | some j => twoBytes j | none => [0xFF, 0xFF])
  | .id => [0x8C, 0x2D, 1, 0]

/-- R152: a report enters the FIFO whole, or is dropped whole and sets REPORT_LOST. -/
def State.queueReport (s : State) (r : Report) : State :=
  s.modRep fun p =>
    if p.fifo.length + r.bytes.length ≤ Config.reportCapacity then
      { p with fifo := p.fifo ++ r.bytes }
    else { p with lost := true }

end Sys2Proof.Machine
end

