-- ==== Sys2Proof/Machine/Lanes.lean ====
section
/-! DEFINITION. Shared operations of the Lane Controllers: changes of lane state, blocks, misses,
transfers and feeds, measurement, scans, and the deletion of records (chapters 5 and 6). -/

namespace Sys2Proof.Machine

/-! ### Lane state -/

/-- R141: the pace index returns to 15, the hysteresis count to 0 and the cadence to not valid. -/
def State.paceRestart (s : State) (l : Lane) : State :=
  s.modPaceLane l fun p => { p with index := Config.slowestEntry, hyst := 0, valid := false }

/-- The removal flag as a lane enters a state (R104). -/
def removalOnEntry (st : LaneState) (old : Bool) : Bool :=
  match st with
  | .running => false
  | .blocked | .fault => true
  | .stopped | .paused => old

/-- A change of lane state: state, reason, removal flag (R104), the pace of a lane entering RUNNING
(R141), and the LANE report (5.2). -/
def State.enterLane (s : State) (l : Lane) (st : LaneState) (reason : LaneReason) : State :=
  let s1 := s.modLane l fun c =>
    { c with state := st, reason := reason, removal := removalOnEntry st c.removal }
  let s2 := if st = .running then s1.paceRestart l else s1
  s2.queueReport (.lane l st reason)

/-! ### Blocks (R98, R99) -/

def BlockReason.toLane : BlockReason → LaneReason
  | .overlength => .overlength | .touching => .touching | .overfill => .overfill
  | .unplaceable => .unplaceable | .stranded => .stranded

def BlockReason.toReject : BlockReason → RejectReason
  | .overlength => .overlength | .touching => .touching | .overfill => .overfill
  | .unplaceable => .unplaceable | .stranded => .stranded

/-- A block names records; a record named before keeps its first reason. -/
def LaneCtl.name (c : LaneCtl) (reason : BlockReason) (tags : List Tag) : LaneCtl :=
  { c with parcels := c.parcels.map fun r =>
      if tags.contains r.tag && r.named.isNone then { r with named := some reason } else r }

/-- REJECTED reports for parcels, in order. -/
def State.rejectAll (s : State) (l : Lane) (reason : RejectReason) (tags : List Tag) : State :=
  tags.foldl (fun s t => s.queueReport (.rejected l t reason)) s

/-- R99: a block names records, reports parcels, and makes the lane BLOCKED. In BLOCKED the state
and its reason stay and the new reason is reported. In STOPPED only a STRANDED block arises: its
record and launch entry go and the removal flag is set. The event's REJECTED reports stand ahead of
the LANE report (DEDUCED from 5.12, log 9). -/
def State.takeBlock (s : State) (l : Lane) (reason : BlockReason) (tags rejected : List Tag) : State :=
  let s1 := (s.modLane l fun c => c.name reason tags).rejectAll l reason.toReject rejected
  match (s.lane l).state with
  | .running | .paused => s1.enterLane l .blocked reason.toLane
  | .blocked =>
    (s1.modLane l fun c => { c with removal := true }).queueReport
      (.lane l .blocked reason.toLane)
  | .stopped =>
    s1.modLane l fun c =>
      { c with
        parcels := c.parcels.filter fun r => !tags.contains r.tag
        launch := none
        removal := true }
  | .fault => s1

/-- R98: one miss more for a record; a fourth makes it unplaceable and blocks the lane. -/
def State.addMiss (s : State) (l : Lane) (t : Tag) : State :=
  let s1 := s.modParcel l t fun r => { r with misses := r.misses + 1 }
  match (s1.lane l).parcel? t with
  | some r =>
    if Config.missLimit ≤ r.misses then s1.takeBlock l .unplaceable [t] [t] else s1
  | none => s1

/-- R96: a launch is aborted; its parcel is stranded. -/
def State.abortLaunch (s : State) (l : Lane) : State :=
  let s1 := s.modLane l fun c =>
    { c with launch := c.launch.map fun e => { e with aborted := true } }
  match (s.lane l).at? .launching with
  | some r => s1.takeBlock l .stranded [r.tag] [r.tag]
  | none => s1

/-- The launch entry's double flag follows the plan's double mark (R94, R136). -/
def LaneCtl.markDouble (c : LaneCtl) : LaneCtl :=
  { c with launch := c.launch.map fun e => { e with double := true } }

/-! ### Feed and transfer (R90, R91) -/

/-- R91: the HOLDING record a transfer may take now. -/
def State.transferReady? (s : State) (l : Lane) : Option Parcel :=
  let c := s.lane l
  if s.online && (c.state == .running || c.state == .paused || c.state == .blocked) &&
      !c.launchTaken then
    c.parcels.find? fun r => r.place == .holding && r.named.isNone
  else none

/-- A transfer begins if it may (R91). -/
def State.startTransfer (s : State) (l : Lane) : State :=
  match s.transferReady? l with
  | some r =>
    s.modLane l fun c =>
      { c.modParcel r.tag (fun r => { r with place := .transferring }) with transfer := some 0 }
  | none => s

/-- R90: the feed runs while the station is ONLINE, the lane RUNNING, the hold place empty and a
record QUEUED. -/
def State.feedRuns (s : State) (l : Lane) : Bool :=
  let c := s.lane l
  s.online && c.state == .running && !c.holdTaken && c.parcels.any fun r => r.place == .queued

/-- The feed follows its conditions. -/
def State.updateFeed (s : State) (l : Lane) : State :=
  s.modLane l fun c => { c with feed := s.feedRuns l }

/-! ### Measurement (R85 to R89) -/

/-- A record for a new parcel. -/
def Parcel.fresh (t : Tag) : Parcel :=
  { tag := t, length := none, span := none, place := .measuring, scan := none, dest := none,
    misses := 0, planSlot := none, named := none, holdTick := none }

/-- R85: a record can be created: the lane is below its count and the pool is not empty. -/
def State.hasRoom (s : State) (l : Lane) : Bool :=
  decide ((s.lane l).parcels.length < s.cfgCapacity l + 3) &&
    decide (s.lanes.l0.parcels.length + s.lanes.l1.parcels.length < Config.poolSize)

/-- R85: the next tag is taken. -/
def LaneCtl.takeTag (c : LaneCtl) : LaneCtl := { c with tagCounter := c.tagCounter + 1 }

/-- A record joins the tail with the next tag (R85). -/
def LaneCtl.create (c : LaneCtl) : LaneCtl :=
  { c with parcels := c.parcels ++ [Parcel.fresh c.tagCounter], tagCounter := c.tagCounter + 1 }

/-- R86, case 1: the parcel touches the one before it. -/
def State.touchingBlock (s : State) (l : Lane) : State :=
  let c := s.lane l
  let before :=
    match c.gapTest with
    | some t =>
      match c.parcel? t with
      | some r => if r.place = .queued then [t] else []
      | none => []
    | none => []
  let room := s.hasRoom l
  let s1 := s.modLane l fun c => if room then c.create else c.takeTag
  let fresh := if room then [c.tagCounter] else []
  s1.takeBlock l .touching (before ++ fresh) (before ++ [c.tagCounter])

/-- R86: the gap test finds the new parcel touching. -/
def State.touches (s : State) (l : Lane) : Bool :=
  (s.lane l).gapTest.isSome && decide ((s.lane l).gapCount < s.cfgMinGap l)

/-- R86: an entry eye blocked edge that is taken. -/
def State.entryEdge (s : State) (l : Lane) : State :=
  if s.touches l then s.touchingBlock l
  else if s.hasRoom l then
    s.modLane l fun c => { c.create with measure := 0, gapTest := none }
  else
    (s.modLane l LaneCtl.takeTag).takeBlock l .overfill [] [(s.lane l).tagCounter]

/-- A candidate for a scan: MEASURING or QUEUED without a scan (R109). -/
def Parcel.isCandidate (r : Parcel) : Bool :=
  (r.place == .measuring || r.place == .queued) && r.scan.isNone

/-- The oldest candidate takes a scan (R109). -/
def LaneCtl.giveScan (c : LaneCtl) (t : Tag) (sc : Scan) : LaneCtl :=
  c.modParcel t fun r => { r with scan := some sc }

/-- R111: the slot's scan moves to the oldest QUEUED record without one. Where no QUEUED record lacks a scan
(the record just measured took one while MEASURING) R111 does not say what becomes of the slot's: it stays
there (DESIGN CHOICE, log 41). -/
def LaneCtl.offerEarly (c : LaneCtl) : LaneCtl :=
  match c.early, c.parcels.find? fun r => r.place == .queued && r.scan.isNone with
  | some sc, some r => { c.giveScan r.tag sc with early := none }
  | _, _ => c

/-- R112: a debris record's scan is returned. -/
def State.returnScan (s : State) (l : Lane) (sc : Scan) : State :=
  let c := s.lane l
  match c.parcels.find? Parcel.isCandidate with
  | some r => s.modLane l fun c => c.giveScan r.tag sc
  | none =>
    let s1 := s.modLane l fun c => { c with early := some sc }
    match c.early with
    | some old => s1.queueReport (.orphan l old.id)
    | none => s1

/-- R87, below the minimum length: the parcel is debris. -/
def State.debris (s : State) (l : Lane) (r : Parcel) : State :=
  let s1 := (s.modLane l fun c => c.dropParcel r.tag).queueReport (.rejected l r.tag .debris)
  match r.scan with
  | some sc => s1.returnScan l sc
  | none => s1

/-- R87, a good length: the record is QUEUED with length and span, the gap test is armed (a minimum
gap of 0 disarms it at once), and the early scan is offered (R111). -/
def State.measured (s : State) (l : Lane) (r : Parcel) (len : Nat) : State :=
  s.modLane l fun c =>
    ({ c.modParcel r.tag (fun r =>
          { r with
            length := some len
            span := some (if len ≤ s.cfgSingle l then .one else .two)
            place := .queued }) with
        gapCount := 0
        gapTest := if s.cfgMinGap l = 0 then none else some r.tag }).offerEarly

/-- R87: the measurement `r` ends at the entry eye clear edge. -/
def State.endMeasure (s : State) (l : Lane) (r : Parcel) : State :=
  let len := (s.lane l).measure
  if len < Config.minLength then s.debris l r
  else if len ≤ s.cfgDouble l then s.measured l r len
  else s.takeBlock l .overlength [r.tag] [r.tag]

/-- R88: the measurement in progress reaches the limit. -/
def State.measureLimit (s : State) (l : Lane) : State :=
  match (s.lane l).measuring? with
  | some r =>
    (s.modLane l fun c => { c with measure := Config.measureLimit }).takeBlock l .overlength
      [r.tag] [r.tag]
  | none => s

/-- R89: a measurement in progress is discarded, and the gap test is disarmed. With no measurement in progress
the gap test is disarmed as well, which R89 does not say (DESIGN CHOICE, log 39). -/
def LaneCtl.discardMeasure (c : LaneCtl) : LaneCtl :=
  match c.measuring? with
  | some r => { c.dropParcel r.tag with measure := 0, gapTest := none }
  | none => { c with gapTest := none }

/-! ### Deletion of records -/

/-- The list is deleted whole, with the launch entry, gap test, timers and early scan (R102, R106). -/
def LaneCtl.deleteList (c : LaneCtl) : LaneCtl :=
  { c with
    parcels := [], gapTest := none, feed := false, transfer := none, launch := none,
    early := none }

/-- R101: the named records leave the list. With a stranded record goes its launch entry; with a
record under way the transfer ends (DESIGN CHOICE, log 13). -/
def LaneCtl.deleteNamed (c : LaneCtl) : LaneCtl :=
  let gone := c.parcels.filter fun r => r.named.isSome
  { c with
    parcels := c.parcels.filter fun r => r.named.isNone
    gapTest := none
    launch := if gone.any (fun r => r.place == .launching) then none else c.launch
    transfer := if gone.any (fun r => r.place == .transferring) then none else c.transfer }

/-- R105: what STOP leaves of a lane's list: a LAUNCHING record whose launch is not aborted. -/
def LaneCtl.stopList (c : LaneCtl) : LaneCtl :=
  let kept := if c.launchRuns then c.parcels.filter (fun r => r.place == .launching) else []
  { c with
    parcels := kept
    gapTest := none, measure := if c.measuring?.isSome then 0 else c.measure
    feed := false, transfer := none
    launch := if c.launchRuns then c.launch else none
    early := none
    removal := c.removal || decide (kept.length < c.parcels.length) }

/-! ### Scans (R108, R109, R113) -/

/-- R109: a scan taken in RUNNING, PAUSED or BLOCKED. -/
def State.placeScan (s : State) (l : Lane) (sc : Scan) : State :=
  let c := s.lane l
  match c.early with
  | some _ => s.queueReport (.orphan l sc.id)
  | none =>
    match c.parcels.find? Parcel.isCandidate with
    | some r => s.modLane l fun c => c.giveScan r.tag sc
    | none => s.modLane l fun c => { c with early := some sc }

/-- R108: a SCAN taken by its lane. -/
def State.takeScan (s : State) (l : Lane) (sc : Scan) : State :=
  match (s.lane l).state with
  | .running | .paused | .blocked => s.placeScan l sc
  | .stopped | .fault => s.queueReport (.orphan l sc.id)

/-- R113: the destination a scan field gives under a no-read chute. -/
def resolveDest (noReadChute : Byte) : Option Scan → Dest
  | some sc =>
    if sc.noRead || sc.multiRead || sc.chute == 0 || sc.chute == 255 then
      { chute := noReadChute, noRead := true }
    else { chute := sc.chute, noRead := false }
  | none => { chute := noReadChute, noRead := true }

end Sys2Proof.Machine
end

