-- ==== Sys2Proof/Machine/PlanEnd.lean ====
section
/-! DEFINITION. Placing a frame in the transmit queue and ending a plan. The two are one operation:
a frame placed at a full queue may end a plan (R55), and a plan that ends places a frame (R133, R134)
and may end its lane's later plan (R135). -/

namespace Sys2Proof.Machine

/-- How a plan ends, success apart (7.8). `abort` is the abandonment at an aborted launch (R26, R135). -/
inductive PlanEnding
  | miss | abandon | abort | withdraw
  deriving DecidableEq, Repr

/-- What is asked of `work`. -/
inductive Work
  | place (e : TxEntry)
  | ending (e : PlanEnding) (lane : Lane) (slot : Slot)
  deriving DecidableEq, Repr

/-! ### Queue places -/

/-- The most recently placed CLAIM in phase WAITING, with its plan reference (R55). -/
def newestWaitingClaim : Nat → List TxEntry → Option (Nat × TxEntry)
  | _, [] => none
  | i, e :: es =>
    match newestWaitingClaim (i + 1) es with
    | some r => some r
    | none => if e.kind.isClaim && e.phase == .waiting then some (i, e) else none

/-- The oldest entry in phase WAITING (R55). -/
def oldestWaiting : Nat → List TxEntry → Option (Nat × TxEntry)
  | _, [] => none
  | i, e :: es => if e.phase = .waiting then some (i, e) else oldestWaiting (i + 1) es

/-- R53: the queue holds an entry of the same kind for the same tray. -/
def State.hasTwin (s : State) (e : TxEntry) : Bool :=
  s.txq.any fun q => q.kind.sameKind e.kind && q.tray == e.tray

/-- LINE report of reason DROPPED for an entry (R55, R57, R63). R55 does not say where it stands among the other
reports of its event: here it is queued as the frame is placed (DESIGN CHOICE, log 37). -/
def State.reportDropped (s : State) (e : TxEntry) : State :=
  s.queueReport (.lineDropped e.kind.code e.tray)

/-- R56: withdrawal of the queued CLAIM of a plan: removed while WAITING, marked while SENDING. -/
def State.withdrawClaim (s : State) (ref : PlanRef) : State :=
  match s.txq.findIdx? fun e => e.kind.isClaim && e.plan == some ref && !e.ended with
  | none => s
  | some i =>
    match s.txq[i]? with
    | some e =>
      if e.phase = .waiting then s.dropEntry i
      else s.setTxq (s.txq.modify i fun e => { e with ended := true })
    | none => s

/-- A waiting entry that carries no plan. -/
def plainEntry (kind : FrameKind) (tray : Nat) (span : Span) : TxEntry :=
  { kind := kind, tray := tray, span := span, plan := none, phase := .waiting, ended := false }

/-! ### Records of a plan (R33, R34) -/

/-- A record still OWN with the plan's reference takes condition `c`; seen is kept (R33, R34). -/
def State.giveBack (s : State) (ref : PlanRef) (c : Cond) (k : Nat) : State :=
  match s.tray? k with
  | some r => if r.cond = .own ∧ r.plan = some ref then s.recond k c r.seen none else s
  | none => s

/-- The records of a plan still OWN with its reference take condition `c`. -/
def State.giveBackAll (s : State) (ref : PlanRef) (c : Cond) (ks : List Nat) : State :=
  ks.foldl (fun s k => s.giveBack ref c k) s

/-- The slot is free, its trigger entry disarmed and its aim entry cleared (R10, R12, R133). -/
def State.clearSlot (s : State) (l : Lane) (sl : Slot) : State :=
  ((s.setPlan l sl none).setTrig (s.trig.set l sl none)).setAims (s.aims.set l sl none)

/-- R135: the ending withdraws the lane's later plan. Kept where the ended plan's parcel runs on:
an abandonment of a LAUNCHED plan whose launch runs on (R95). -/
def endsLater (e : PlanEnding) (st : PlanState) : Bool :=
  match e, st with
  | .abandon, .launched => false
  | _, _ => true

/-- The slot of the lane's other live plan if it belongs to a later parcel than tag `t` (R135). -/
def State.laterSlot? (s : State) (l : Lane) (sl : Slot) (t : Tag) : Option Slot :=
  match s.plan l (otherSlot sl) with
  | some q => if (s.lane l).rank t < (s.lane l).rank q.tag then some (otherSlot sl) else none
  | none => none

/-- The lane and slot of the live plan a queued CLAIM carries. -/
def State.claimSlot? (s : State) (q : TxEntry) : Option (Lane × Slot) :=
  match q.livePlan? with
  | some ref => (s.slotOf? ref.lane ref.tag).map fun sl => (ref.lane, sl)
  | none => none

/-- R33, R133: the slot is freed, the plan's records return, and the parcel is unplanned. -/
def State.unplan (s : State) (l : Lane) (sl : Slot) (p : Plan) : State :=
  ((s.clearSlot l sl).giveBackAll { lane := l, tag := p.tag } .opened
    (s.namedTrays p.target p.span)).modParcel l p.tag fun r => { r with planSlot := none }

/-- R98, R133: an ending by a miss is counted. -/
def State.countMiss (s : State) (e : PlanEnding) (l : Lane) (t : Tag) : State :=
  if e = .miss then s.addMiss l t else s

/-- The slot of the plan that the ending of `p` withdraws (R135). -/
def State.nextEnding? (s : State) (e : PlanEnding) (l : Lane) (sl : Slot) (p : Plan) : Option Slot :=
  if endsLater e p.state then s.laterSlot? l sl p.tag else none

/-! ### The operation -/

/-- Places a frame (R53, R55) or ends a plan by a miss, abandonment or withdrawal (R33, R133 to
R135). The first argument bounds the depth: each ending frees one of four slots first, so that
`workFuel` is never used up (log 22). -/
def work : Nat → Work → State → State
  | 0, _, s => s
  | n + 1, .place e, s =>
    if !s.line.enabled then s
    else if s.hasTwin e then s
    else if s.txq.length < Config.txCapacity then s.appendEntry e
    else
      match newestWaitingClaim 0 s.txq with
      | some (i, q) =>
        match (s.dropEntry i).claimSlot? q with
        | some (l, sl) => work n (.place e) (work n (.ending .withdraw l sl) (s.dropEntry i))
        | none => work n (.place e) (s.dropEntry i)
      | none =>
        match oldestWaiting 0 s.txq with
        | some (i, q) => ((s.dropEntry i).reportDropped q).appendEntry e
        | none => s
  | n + 1, .ending e l sl, s =>
    match s.plan l sl with
    | none => s
    | some p =>
      let s1 := s.unplan l sl p
      let s2 :=
        if p.state = .tentative then s1.withdrawClaim { lane := l, tag := p.tag }
        else work n (.place (plainEntry .release p.target p.span)) s1
      let s3 := s2.countMiss e l p.tag
      match s3.nextEnding? e l sl p with
      | some sl' => work n (.ending .withdraw l sl') s3
      | none => s3

/-- Depth `work` is given. -/
def workFuel : Nat := 16

/-- A frame is placed in the transmit queue (R53, R55). -/
def State.placeFrame (s : State) (kind : FrameKind) (tray : Nat) (span : Span) : State :=
  work workFuel (.place (plainEntry kind tray span)) s

/-- A plan ends by a miss, an abandonment or a withdrawal (R133 to R135). -/
def State.endPlan (s : State) (e : PlanEnding) (l : Lane) (sl : Slot) : State :=
  work workFuel (.ending e l sl) s

/-- A plan named by lane and tag ends; one that has ended already has no effect (R32, R134). -/
def State.endRef (s : State) (e : PlanEnding) (ref : PlanRef) : State :=
  match s.slotOf? ref.lane ref.tag with
  | some sl => s.endPlan e ref.lane sl
  | none => s

/-- An unlaunched plan ends by withdrawal. -/
def State.withdrawSlot (s : State) (l : Lane) (sl : Slot) : State :=
  match s.plan l sl with
  | some p => if p.state = .launched then s else s.endPlan .withdraw l sl
  | none => s

/-- The unlaunched plans of a lane end by withdrawal, in the order of the slots given. -/
def State.withdrawSlots (s : State) (l : Lane) (slots : List Slot) : State :=
  slots.foldl (fun s sl => s.withdrawSlot l sl) s

/-- Every unlaunched plan ends by withdrawal, lane 0 before lane 1, oldest parcel first (R137,
R167). -/
def State.withdrawAll (s : State) : State :=
  let s1 := s.withdrawSlots .l0 (s.slotsByAge .l0)
  s1.withdrawSlots .l1 (s1.slotsByAge .l1)

/-- R136: the LAUNCHED plan in a slot ends in success: its records become PASSED and the slot is
freed. -/
def State.succeed (s : State) (l : Lane) (sl : Slot) : State :=
  match s.plan l sl with
  | some p =>
    (s.clearSlot l sl).giveBackAll { lane := l, tag := p.tag } .passed
      (s.namedTrays p.target p.span)
  | none => s

end Sys2Proof.Machine
end

