-- ==== Sys2Proof/Machine/TrayMap.lean ====
section
/-! DEFINITION. The Tray Map's position events (check event, arrival, zone exit), its frames heard,
and its changes at join, lock loss and the end of a session (chapters 2 and 4). -/

namespace Sys2Proof.Machine

/-- The state of the plan a record refers to. -/
def State.planStateOf? (s : State) (r : TrayRec) : Option PlanState :=
  match r.plan with
  | some ref => (s.planOf? ref).map Plan.state
  | none => none

/-- The plan a record refers to ends, if it is live (R32). -/
def State.endPlanOf (s : State) (e : PlanEnding) (r : TrayRec) : State :=
  match r.plan with
  | some ref => s.endRef e ref
  | none => s

/-- The plan a record refers to is marked double, and so is its lane's launch entry (R26, R80, R94). -/
def State.markDouble (s : State) (r : TrayRec) : State :=
  match r.plan with
  | some ref =>
    match s.slotOf? ref.lane ref.tag with
    | some sl =>
      (s.setPlan ref.lane sl ((s.plan ref.lane sl).map fun p => { p with double := true })).modLane
        ref.lane LaneCtl.markDouble
    | none => s
  | none => s

/-! ### The check event (2.5) -/

/-- What the occupied sample says (R23). -/
def sampleSeen (occupied : Bool) : Seen := if occupied then .occupied else .free

/-- R23: the tray is not level. A LINE DROPPED that the DEFECT frame causes at a full queue (R55) stands ahead of
the reports R23 names, one that the plan's RELEASE causes between them (DESIGN CHOICE, log 37). -/
def State.checkNotLevel (s : State) (k : Nat) (r : TrayRec) : State :=
  if r.cond = .defective then s.setSeen k (sampleSeen s.pins.chk)
  else
    let s1 := (s.recond k .defective (sampleSeen s.pins.chk) none).placeFrame .defect k .one
    let s2 := s1.queueReport (.defect k .own)
    if r.cond = .own then
      let s3 := s2.endPlanOf .abandon r
      if s.planStateOf? r = some .launched then s3.queueReport (.mismatch k .tiltedTarget) else s3
    else s2

/-- R26: whether the merge eye has been blocked since the launch of the record's plan began. -/
def State.mergeSeenOf (s : State) (r : TrayRec) : Bool :=
  match r.plan with
  | some ref =>
    match (s.lane ref.lane).launch with
    | some e => e.mergeSeen
    | none => false
  | none => false

/-- R26, merge eye not yet blocked: the launch is aborted and the plan abandoned. -/
def State.checkAbort (s : State) (k : Nat) (r : TrayRec) : State :=
  let s1 := s.recond k .stray .occupied none
  let s2 :=
    match r.plan with
    | some ref => s1.abortLaunch ref.lane
    | none => s1
  (s2.placeFrame .occupied k .one).endPlanOf .abort r

/-- R24 to R26, R28: the tray is level and occupied. -/
def State.checkOccupied (s : State) (k : Nat) (r : TrayRec) : State :=
  match r.cond with
  | .opened | .heldBehind => (s.recond k .stray .occupied none).placeFrame .occupied k .one
  | .heldAhead | .loadedAhead | .stray => s.setSeen k .occupied
  | .learning | .passed | .defective => s.setSeen k .occupied
  | .own =>
    if s.planStateOf? r = some .launched then
      if s.mergeSeenOf r then
        ((s.setSeen k .occupied).markDouble r).queueReport (.mismatch k .doubleLoad)
      else s.checkAbort k r
    else ((s.recond k .stray .occupied none).placeFrame .occupied k .one).endPlanOf .abandon r

/-- R27, R28: the tray is level and free. -/
def State.checkFree (s : State) (k : Nat) (r : TrayRec) : State :=
  match r.cond with
  | .loadedAhead => (s.queueReport (.mismatch k .emptyLoaded)).recond k .opened .free none
  | .stray => s.recond k .opened .free none
  | .opened | .heldAhead | .heldBehind | .own => s.setSeen k .free
  | .learning | .passed | .defective => s.setSeen k .free

/-- The check event of tray `k`, on the levels of CHK and LVL (R9, R23 to R28). -/
def State.checkEvent (s : State) (k : Nat) : State :=
  if s.mapInUse then
    match s.tray? k with
    | some r =>
      if !s.pins.lvl then s.checkNotLevel k r
      else if s.pins.chk then s.checkOccupied k r
      else s.checkFree k r
    | none => s
  else s

/-! ### Arrival and zone exit -/

/-- The arrival of tray `k` (R29). -/
def State.arrival (s : State) (k : Nat) : State :=
  if s.mapInUse then
    match s.tray? k with
    | some r =>
      match r.cond with
      | .own | .defective | .learning => s
      | _ => s.recond k .passed r.seen none
    | none => s
  else s

/-- R22: the record of tray `k` begins its next pass. -/
def State.zoneExitRecord (s : State) (k : Nat) : State :=
  match s.tray? k with
  | some r =>
    match r.cond with
    | .defective => s.setSeen k .none
    | .own => s
    | _ => s.recond k .opened .none none
  | none => s

/-- R57: one stale entry is withdrawn: a CLAIM ends its plan, another kind is reported DROPPED. -/
def State.dropStale (s : State) (e : TxEntry) : State :=
  match s.txq.findIdx? fun q => q.phase == .waiting && q.tray == e.tray && q.kind.sameKind e.kind with
  | some i =>
    let s1 := s.dropEntry i
    if e.kind.isClaim then
      match e.livePlan? with
      | some ref => s1.endRef .withdraw ref
      | none => s1
    else s1.reportDropped e
  | none => s

/-- Entries in phase WAITING whose tray field is `k` (R57). -/
def State.staleEntries (s : State) (k : Nat) : List TxEntry :=
  s.txq.filter fun e => e.phase == .waiting && e.tray == k

/-- R57: the entries waiting for tray `k` become stale; their order among themselves is free. -/
def State.dropStaleAll (s : State) (k : Nat) : State :=
  (s.freeOrder (s.staleEntries k)).foldl State.dropStale (s.afterOrder (s.staleEntries k))

/-- The order of the two parts of a zone exit matters: the record is OWN and a CLAIM waits. -/
def State.zoneExitContested (s : State) (k : Nat) : Bool :=
  (match s.tray? k with
   | some r => r.cond == .own
   | none => false) && (s.staleEntries k).any fun e => e.kind.isClaim

/-- The zone exit of tray `k`: its record (R22) and the waiting frames that name it (R57). Their
order is free where it matters (log 4). -/
def State.zoneExit (s : State) (k : Nat) : State :=
  if s.mapInUse then
    if s.zoneExitContested k then
      if s.freeBit then (s.bumpFree.zoneExitRecord k).dropStaleAll k
      else (s.bumpFree.dropStaleAll k).zoneExitRecord k
    else (s.zoneExitRecord k).dropStaleAll k
  else s

/-! ### Session and lock -/

/-- R40: the doubt window is set. -/
def State.setDoubtWindow (s : State) : State :=
  s.setDoubt (min s.cfgDoubtDistance s.loopLength)

/-- One fresh record for each tray. -/
def State.freshTrays (s : State) : State := s.setTrays (List.replicate s.cfgT TrayRec.fresh)

/-- The trays named in the committed initial defect list (R20). -/
def State.defectList (s : State) : List Nat :=
  ((List.range 20).map (defectEntry s.table.committed)).filter fun k => k != 0xFFFF

/-- R20: the join event. -/
def State.joinTrays (s : State) : State :=
  (s.defectList.foldl
    (fun s k => s.modTray k fun r => { r with cond := .defective })
    s.freshTrays).setDoubtWindow

/-- R35: a record at lock loss. OWN records of LAUNCHED plans and DEFECTIVE records are kept. -/
def State.lockLostRecord (s : State) (r : TrayRec) : TrayRec :=
  if r.cond = .defective then r
  else if r.cond = .own ∧ s.planStateOf? r = some .launched then r
  else { cond := .learning, seen := r.seen, holder := none, partner := none, plan := none }

/-- R35: every record at lock loss. -/
def State.lockLostTrays (s : State) : State := s.setTrays (s.trays.map s.lockLostRecord)

/-! ### Frames heard (chapter 4) -/

/-- The condition a CLAIM gives: HELD by the sender's standing (R67, R70). -/
def State.heldCond (s : State) (location : Nat) : Cond :=
  if s.isAhead location then .heldAhead else .heldBehind

/-- A record that a CLAIM may take: OPEN, or OWN for a TENTATIVE plan (R70, R71, R73). -/
def State.claimable (s : State) (r : TrayRec) : Bool :=
  r.cond == .opened || (r.cond == .own && s.planStateOf? r == some .tentative)

/-- A record that refuses a span CLAIM: held, loaded, or OWN for a plan that is CLAIMED or LAUNCHED
(R73). -/
def State.refusesSpan (s : State) (r : TrayRec) : Bool :=
  r.cond == .heldAhead || r.cond == .heldBehind || r.cond == .loadedAhead ||
    (r.cond == .own && s.planStateOf? r != some .tentative)

/-- A CLAIM takes the record of tray `k` if it may (R70, R71, R73). -/
def State.holdRecord (s : State) (f : FrameData) (k : Nat) : State :=
  match s.tray? k with
  | some r =>
    if s.claimable r then s.recond k (s.heldCond f.location) r.seen (some f.station) else s
  | none => s

/-- The plan whose OWN-queued record a CLAIM takes ends by withdrawal (R71, R74). -/
def State.loseRace (s : State) (r : Option TrayRec) : State :=
  match r with
  | some r => if r.cond = .own then s.endPlanOf .withdraw r else s
  | none => s

/-- A CLAIM heard (R70 to R75). -/
def State.applyClaim (s : State) (f : FrameData) : State :=
  match f.span with
  | .one =>
    match s.tray? f.tray with
    | some r =>
      if s.claimable r then (s.holdRecord f f.tray).loseRace (some r) else s
    | none => s
  | .two =>
    let j := s.nextTray f.tray
    match s.tray? f.tray, s.tray? j with
    | some r, some q =>
      if s.refusesSpan r || s.refusesSpan q then s
      else
        let s1 := (s.holdRecord f f.tray).holdRecord f j
        let s2 := if s.claimable r && s.claimable q then s1.pairUp f.tray j else s1
        (s2.loseRace (if s.claimable r then some r else none)).loseRace
          (if s.claimable q then some q else none)
    | _, _ => s

/-- A RELEASE heard, for one tray (R76, R77). -/
def State.releaseRecord (s : State) (f : FrameData) (k : Nat) : State :=
  match s.tray? k with
  | some r =>
    if (r.cond = .heldAhead ∨ r.cond = .heldBehind) ∧ r.holder = some f.station then
      s.recond k .opened r.seen none
    else s
  | none => s

/-- A LOADED or OCCUPIED heard from ahead, for one tray; `c` is LOADED_AHEAD or STRAY (R78 to R80). -/
def State.takenRecord (s : State) (c : Cond) (f : FrameData) (k : Nat) : State :=
  match s.tray? k with
  | some r =>
    match r.cond with
    | .opened | .heldAhead | .heldBehind => s.recond k c r.seen (some f.station)
    | .own =>
      if s.planStateOf? r = some .launched then
        (s.markDouble r).queueReport (.mismatch k .doubleLoad)
      else (s.recond k c r.seen (some f.station)).endPlanOf .abandon r
    | .loadedAhead | .stray | .passed | .learning | .defective => s
  | none => s

/-- A DEFECT heard, for one tray (R82, R83). R83 orders the DEFECT and the MISMATCH report; a LINE DROPPED that
the plan's RELEASE causes at a full queue (R55) stands between them here (DESIGN CHOICE, log 37). -/
def State.defectRecord (s : State) (k : Nat) : State :=
  match s.tray? k with
  | some r =>
    if r.cond = .defective then s
    else
      let s1 := (s.recond k .defective r.seen none).queueReport (.defect k .heard)
      if r.cond = .own then
        let s2 := s1.endPlanOf .abandon r
        if s.planStateOf? r = some .launched then s2.queueReport (.mismatch k .tiltedTarget)
        else s2
      else s1
  | none => s

/-- A record holds condition `c` with the given holder. -/
def State.holdsAs (s : State) (c : Cond) (holder k : Nat) : Bool :=
  match s.tray? k with
  | some r => r.cond == c && r.holder == some holder
  | none => false

/-- R68: after a span frame both records that hold what the frame gives become partners. Neither R68 nor R18
says what a third record that named one of them then names: its partner field is left as it stands
(DESIGN CHOICE, log 38). -/
def State.pairIf (s : State) (c : Cond) (f : FrameData) : State :=
  match f.span with
  | .one => s
  | .two =>
    if s.holdsAs c f.station f.tray && s.holdsAs c f.station (s.nextTray f.tray) then
      s.pairUp f.tray (s.nextTray f.tray)
    else s

/-- A LOADED or OCCUPIED heard (R68, R78 to R81): from behind it is ignored. -/
def State.applyTaken (s : State) (c : Cond) (f : FrameData) : State :=
  if s.isAhead f.location then
    ((s.namedTrays f.tray f.span).foldl (fun s k => s.takenRecord c f k) s).pairIf c f
  else s

/-- A frame that passed the checks is applied by kind, whole (R52, R68). -/
def State.applyFrame (s : State) (f : FrameData) : State :=
  if s.mapInUse then
    match f.kind with
    | .claim _ => s.applyClaim f
    | .release => (s.namedTrays f.tray f.span).foldl (fun s k => s.releaseRecord f k) s
    | .loaded _ _ => s.applyTaken .loadedAhead f
    | .occupied => s.applyTaken .stray f
    | .defect => (s.namedTrays f.tray f.span).foldl State.defectRecord s
  else s

/-- R51: a frame that fails a check is reported; CRC, TRAY and LOCATION start the doubt window
(R40) of a map in use (R19). -/
def State.rejectFrame (s : State) (why : FrameReject) (kindCode : Nat) : State :=
  let s1 := s.queueReport (.frameRejected why kindCode)
  match why with
  | .crc | .tray | .location => if s.mapInUse then s1.setDoubtWindow else s1
  | .length | .twin => s1

/-- Checks 3 to 5 of R50, then the frame is rejected (R51) or handed over (R52). -/
def State.receiveFrame (s : State) (f : FrameData) : State :=
  match s.fieldReject f with
  | some why => s.rejectFrame why f.kind.code
  | none => s.applyFrame f

end Sys2Proof.Machine
end

