-- ==== Sys2Proof/Machine/Planner.lean ====
section
/-! DEFINITION. The Launch Planner: triggers (R10, R11, R130), the aim search and the planning event
(R121 to R128), retiming and the lead-range suspension (R120, R131, R132). -/

namespace Sys2Proof.Machine

/-! ### Triggers -/

/-- R12: the aim of a plan just LAUNCHED is handed over: reached at once, or held. -/
def State.handAim (s : State) (l : Lane) (sl : Slot) (p : Plan) : State :=
  if s.alreadyReached p.aim then
    s.setPlan l sl (some { p with state := .launched, aimReached := true })
  else
    (s.setPlan l sl (some { p with state := .launched })).setAims
      (s.aims.set l sl (some p.aim))

/-- R93, R130: the plan is CLAIMED and its parcel READY: the launch starts. -/
def State.launch (s : State) (l : Lane) (sl : Slot) (p : Plan) : State :=
  (s.handAim l sl p).modLane l fun c =>
    { c.modParcel p.tag (fun r => { r with place := .launching }) with
      launch := some
        { tray := p.target, span := p.span, double := false, mergeSeen := s.pins.mergeEye.get l,
          aborted := false, timer := 0 } }

/-- The parcel that holds plan slot `sl` is READY (R93, R130). -/
def State.slotReady (s : State) (l : Lane) (sl : Slot) : Bool :=
  match (s.lane l).bySlot? sl with
  | some r => r.place == .ready
  | none => false

/-- R11, R93, R130: a trigger is taken. Its entry becomes empty; a CLAIMED plan whose parcel is READY
is launched, any other unlaunched plan misses. -/
def State.takeTrigger (s : State) (l : Lane) (sl : Slot) : State :=
  let s1 := s.setTrig (s.trig.set l sl none)
  match s1.plan l sl with
  | none => s1
  | some p =>
    match p.state with
    | .claimed => if s1.slotReady l sl then s1.launch l sl p else s1.endPlan .miss l sl
    | .tentative => s1.endPlan .miss l sl
    | .launched => s1

/-- R10: a trigger is armed, and taken at once when the loop has come to it (R11). -/
def State.arm (s : State) (l : Lane) (sl : Slot) (position : Nat) : State :=
  if s.locked then
    let s1 := s.setTrig (s.trig.set l sl (some position))
    if s1.alreadyReached position then s1.takeTrigger l sl else s1
  else s

/-- R10: a re-arm of an empty entry is discarded. -/
def State.rearm (s : State) (l : Lane) (sl : Slot) (position : Nat) : State :=
  if (s.trig.get l sl).isSome then s.arm l sl position else s

/-! ### The aim search (R125, R126) -/

/-- Lane order: every live plan of the lane whose aim is not reached leaves `d` at least Q behind
it (R126, test 2). -/
def State.laneOrderOk (s : State) (l : Lane) (d : Nat) : Bool :=
  [Slot.s0, Slot.s1].all fun sl =>
    match s.plan l sl with
    | some p => p.aimReached || decide (s.fd s.loop.S p.aim + s.cfgQ l ≤ d)
    | none => true

/-- Merge clearance: every live plan of the other lane whose aim is not reached lies at least C from
`d`, either way (R126, test 3). -/
def State.clearanceOk (s : State) (l : Lane) (d : Nat) : Bool :=
  [Slot.s0, Slot.s1].all fun sl =>
    match s.plan (otherLane l) sl with
    | some p =>
      let o := s.fd s.loop.S p.aim
      p.aimReached || decide (o + s.cfgC ≤ d) || decide (d + s.cfgC ≤ o)
    | none => true

/-- R126: a candidate (distance, tray) is accepted. -/
def State.acceptable (s : State) (l : Lane) (sp : Span) (c : Nat × Nat) : Bool :=
  s.eligibleSpan c.2 sp && s.laneOrderOk l c.1 && s.clearanceOk l c.1

/-- R125: the tray of the first candidate accepted. -/
def State.searchAim (s : State) (l : Lane) (lead : Nat) (sp : Span) : Option Nat :=
  ((s.candidates lead sp).find? (s.acceptable l sp)).map Prod.snd

/-! ### The claim request (R30, R54, R128) -/

/-- R30: the request is granted: the map is in use, the trays are eligible, at least three entries of
the queue are free and no CLAIM names the same tray. -/
def State.grants (s : State) (k : Nat) (sp : Span) : Bool :=
  s.mapInUse && s.eligibleSpan k sp &&
    decide (s.txq.length + Config.claimRoom ≤ Config.txCapacity) &&
    !s.txq.any fun e => e.kind.isClaim && e.tray == k

/-- The lowest-numbered free slot of a lane (R118). -/
def State.freeSlot? (s : State) (l : Lane) : Option Slot :=
  if (s.plan l .s0).isNone then some .s0
  else if (s.plan l .s1).isNone then some .s1
  else none

/-- R30: the records become OWN with the plan's reference, seen kept. -/
def State.ownTrays (s : State) (ref : PlanRef) (k : Nat) (sp : Span) : State :=
  let take := fun (partner : Option Nat) (r : TrayRec) =>
    ({ cond := .own, seen := r.seen, holder := none, partner := partner, plan := some ref } :
      TrayRec)
  match sp with
  | .one => s.modTray k (take none)
  | .two => (s.modTray k (take (some (s.nextTray k)))).modTray (s.nextTray k) (take (some k))

/-- A plan made for a target at lead `lead` (R128). -/
def State.newPlan (s : State) (t : Tag) (k : Nat) (sp : Span) (lead : Nat) : Plan :=
  { tag := t, span := sp, target := k, aim := s.aimOf k sp, lead := lead,
    trigger := s.fd lead (s.aimOf k sp), state := .tentative, double := false,
    aimReached := false }

/-- R30, R128: the granted claim: records OWN, CLAIM queued, plan made, trigger armed. -/
def State.makePlan (s : State) (l : Lane) (sl : Slot) (t : Tag) (k : Nat) (sp : Span) (lead : Nat) :
    State :=
  let ref : PlanRef := { lane := l, tag := t }
  let p := s.newPlan t k sp lead
  let s1 := (s.ownTrays ref k sp).appendEntry
    { kind := .claim l, tray := k, span := sp, plan := some ref, phase := .waiting, ended := false }
  let s2 := (s1.setPlan l sl (some p)).modParcel l t fun r => { r with planSlot := some sl }
  s2.arm l sl p.trigger

/-! ### The planning event (R121 to R124) -/

/-- R103: the record is offered for planning. -/
def Parcel.isOffered (r : Parcel) : Bool :=
  (r.place == .holding || r.place == .ready) && r.planSlot.isNone && r.named.isNone &&
    decide (r.misses < Config.missLimit)

/-- R103: the records a lane offers, oldest first. -/
def State.offered (s : State) (l : Lane) : List Parcel :=
  if s.online && ((s.lane l).state == .running || (s.lane l).state == .paused) then
    (s.lane l).parcels.filter Parcel.isOffered
  else []

/-- R120: the lead leaves no room for an aim. -/
def State.outOfRange (s : State) (lead : Nat) : Bool := decide (s.cfgH < lead + s.cfgG)

/-- R120: the suspension is set, and reported if it was clear. -/
def State.suspend (s : State) (l : Lane) : State :=
  if s.planner.suspended.get l then s
  else
    (s.modPlanner fun p => { p with suspended := p.suspended.set l true }).queueReport
      (.lane l (s.lane l).state .leadRange)

/-- R124: a lane plans its offered parcels, oldest first. The flag says that a claim request was
refused. A plan that its own arming ends leaves an older parcel unplanned, and the lane plans
nothing more (DEDUCED, log 8). -/
def planParcels : List Parcel → Lane → State → State × Bool
  | [], _, s => (s, false)
  | r :: rest, l, s =>
    let lead := s.leadOf l r
    let sp := r.span.getD .one
    if s.outOfRange lead then (s.suspend l, false)
    else
      match s.searchAim l lead sp with
      | none => (s, false)
      | some k =>
        if s.grants k sp then
          match s.freeSlot? l with
          | none => (s, false)
          | some sl =>
            let s1 := s.makePlan l sl r.tag k sp lead
            if (s1.plan l sl).isSome then planParcels rest l s1 else (s1, false)
        else (s, true)

/-- A lane takes part: it offers a parcel and its suspension is clear (R122). -/
def State.takesPart (s : State) (l : Lane) : Bool :=
  !(s.offered l).isEmpty && !s.planner.suspended.get l

/-- R121: the Planner plans at a planning event. -/
def State.mayPlan (s : State) : Bool :=
  s.online && s.locked && decide (s.cfgMinSpeed ≤ s.loop.vs)

/-- The hold time of the parcel a lane would plan first (R123). -/
def State.firstHold (s : State) (l : Lane) : Tick :=
  match (s.offered l).head? with
  | some r => r.holdTick.getD 0
  | none => 0

/-- R123: the lane that plans first when both take part. The difference is lane 0's hold time less lane 1's;
R123 does not say which is taken from which, and at a difference of exactly 2^31 ticks it decides: lane 0
is then the earlier (DESIGN CHOICE, log 40). -/
def State.arbitrate (s : State) : Lane :=
  let diff := (s.firstHold .l0 - s.firstHold .l1).toInt
  if diff < 0 then .l0 else if 0 < diff then .l1 else otherLane s.planner.arbiter

/-- R122 to R124: one planning event. -/
def State.planningEvent (s : State) : State :=
  if s.mayPlan then
    match s.takesPart .l0, s.takesPart .l1 with
    | true, true =>
      let first := s.arbitrate
      let r := planParcels (s.offered first) first
        (s.modPlanner fun p => { p with arbiter := first })
      if r.2 then r.1
      else (planParcels (r.1.offered (otherLane first)) (otherLane first) r.1).1
    | true, false => (planParcels (s.offered .l0) .l0 s).1
    | false, true => (planParcels (s.offered .l1) .l1 s).1
    | false, false => s
  else s

/-! ### Window end (R120, R131, R132) -/

/-- R131: one plan is retimed at the speed just formed: a miss, or a new lead and trigger. -/
def State.retime (s : State) (l : Lane) (sl : Slot) : State :=
  match s.plan l sl with
  | none => s
  | some p =>
    if p.state = .launched then s
    else
      match (s.lane l).bySlot? sl with
      | none => s
      | some r =>
        let lead := s.leadOf l r
        if s.fd s.loop.S p.aim < lead then s.endPlan .miss l sl
        else
          let trigger := s.fd lead p.aim
          (s.setPlan l sl (some { p with lead := lead, trigger := trigger })).rearm l sl trigger

/-- R132, step 1, for one lane: oldest parcel first. -/
def State.retimeLane (s : State) (l : Lane) : State :=
  (s.slotsByAge l).foldl (fun s sl => s.retime l sl) s

/-- Some plan is TENTATIVE or CLAIMED on a lane. -/
def State.hasUnlaunched (s : State) (l : Lane) : Bool :=
  [Slot.s0, Slot.s1].any fun sl =>
    match s.plan l sl with
    | some p => p.state != .launched
    | none => false

/-- The lanes that have plans to retime. -/
def State.lanesToRetime (s : State) : List Lane := bothLanes.filter s.hasUnlaunched

/-- R120: the test of a lane's suspension at a window end. -/
def State.testSuspension (s : State) (l : Lane) : State :=
  if s.planner.suspended.get l && (s.offered l).all fun r => !s.outOfRange (s.leadOf l r) then
    s.modPlanner fun p => { p with suspended := p.suspended.set l false }
  else s

/-- Some plan of the first state is gone from its slot in the second. -/
def planEnded (before after : State) : Bool :=
  allSlots.any fun x => (before.plan x.1 x.2).isSome && (after.plan x.1 x.2).isNone

/-- R132: the Planner takes a window end whole. The order of the lanes in step 1 is free. -/
def State.plannerWindow (s : State) : State :=
  let s1 := (s.freeOrder s.lanesToRetime).foldl State.retimeLane (s.afterOrder s.lanesToRetime)
  let s2 := (s1.testSuspension .l0).testSuspension .l1
  if planEnded s s2 then s2.planningEvent else s2

end Sys2Proof.Machine
end

