-- ==== Sys2Proof/Machine/Loop.lean ====
section
/-! DEFINITION. The Loop Tracker: newly reached positions (R9 to R12), counts (R1, R2, R6), lock (R3 to
R8) and the speed window (R13, R14), with what the other blocks take at lock lost (R35, R127, R141). -/

namespace Sys2Proof.Machine

/-! ### Newly reached positions -/

/-- Lane and slot of the triggers armed at a position (R11). -/
def State.triggersAt (s : State) (p : Nat) : List (Lane × Slot) :=
  allSlots.filter fun x => s.trig.get x.1 x.2 == some p

/-- Triggers armed at a position are taken, in a free order (R11). -/
def State.takeTriggersAt (s : State) (p : Nat) : State :=
  (s.freeOrder (s.triggersAt p)).foldl (fun s x => s.takeTrigger x.1 x.2)
    (s.afterOrder (s.triggersAt p))

/-- R12, R127: the aim entry of a slot is reached: it empties and the plan's aim mark is set. -/
def State.reachAim (s : State) (l : Lane) (sl : Slot) : State :=
  (s.setAims (s.aims.set l sl none)).setPlan l sl
    ((s.plan l sl).map fun p => { p with aimReached := true })

/-- The aims held at a position are reached (R12). -/
def State.reachAimsAt (s : State) (p : Nat) : State :=
  allSlots.foldl
    (fun s x => if s.aims.get x.1 x.2 = some p then s.reachAim x.1 x.2 else s) s

/-- A tray event of a position (1.4). -/
inductive TrayEvent
  | check (k : Nat)
  | arrival (k : Nat)
  | zoneExit (k : Nat)
  deriving DecidableEq, Repr

/-- The tray events of a position (R9). -/
def State.trayEventsAt (s : State) (p : Nat) : List TrayEvent :=
  (s.checkAt p).toList.map .check ++ (s.arrivalAt p).toList.map .arrival ++
    (s.zoneExitAt p).toList.map .zoneExit

/-- One tray event is handed to the Tray Map (R9). -/
def State.trayEvent (s : State) : TrayEvent → State
  | .check k => s.checkEvent k
  | .arrival k => s.arrival k
  | .zoneExit k => s.zoneExit k

/-- The tray events of a position, in a free order (R9). -/
def State.trayEvents (s : State) (p : Nat) : State :=
  (s.freeOrder (s.trayEventsAt p)).foldl State.trayEvent (s.afterOrder (s.trayEventsAt p))

/-- R41: the doubt window counts down by one. -/
def State.countDoubt (s : State) : State := s.setDoubt (s.doubt - 1)

/-- A position is newly reached: its triggers, its aims, then its tray events (R9, R11, R12), and one
count of the doubt window (R41). -/
def State.newlyReached (s : State) (p : Nat) : State :=
  (((s.takeTriggersAt p).reachAimsAt p).trayEvents p).countDoubt

/-- An arrival falls at one of the `n` positions after `f` (R122). -/
def State.arrivalAfter (s : State) (f : Nat) : Nat → Bool
  | 0 => false
  | n + 1 =>
    (s.arrivalAt ((f + n + 1) % s.loopLength)).isSome || s.arrivalAfter f n

/-! ### Lock lost (R7, R35, R127, R141, R167) -/

/-- R127: every LAUNCHED plan's aim mark becomes reached. -/
def State.markAimsReached (s : State) : State :=
  allSlots.foldl
    (fun s x =>
      s.setPlan x.1 x.2 ((s.plan x.1 x.2).map fun p =>
        if p.state = .launched then { p with aimReached := true } else p))
    s

/-- R7: the Loop Tracker enters UNLOCKED. -/
def LoopTracker.unlock (c : LoopTracker) : LoopTracker :=
  { c with lock := .unlocked, S := 0, backlog := 0, frontier := 0, travel := 0, missing := 0 }

/-- R7: lock is lost, with what each block takes at it: the entries emptied, the LOOP report, the
records (R35), the unlaunched plans (R35, R167), the aim marks (R127) and the pace (R141). -/
def State.lockLost (s : State) : State :=
  let s1 := ((s.modLoop LoopTracker.unlock).setTrig (.all none)).setAims (.all none)
  let s2 := s1.queueReport (.loop .unlocked .lost)
  let s3 := if s2.mapInUse then s2.lockLostTrays else s2
  ((s3.withdrawAll.markAimsReached).paceRestart .l0).paceRestart .l1

/-! ### Missing marker (R6) -/

/-- R6: the marker is declared missing. -/
def State.declareMissing (s : State) : State :=
  if s.loop.missing = 0 then
    (s.modLoop fun c =>
      { c with missing := 1, travel := c.travel - s.loopLength, lock := .coasting }).queueReport
        (.loop .coasting .coasting)
  else s.lockLost

/-- K exceeds L plus the slip tolerance (R6). -/
def State.markerOverdue (s : State) : Bool := decide (s.loopLength + s.cfgSlip < s.loop.travel)

/-! ### Counts (R1, R2, R5) -/

/-- The next position. -/
def State.nextS (s : State) : Nat := (s.loop.S + 1) % s.loopLength

/-- R1: S advances by one; a backlog is paid off first, else the frontier follows. -/
def State.stepForward (s : State) : State :=
  s.modLoop fun c =>
    if c.backlog = 0 then { c with S := s.nextS, frontier := s.nextS }
    else { c with S := s.nextS, backlog := c.backlog - 1 }

/-- R5: one count of a forward correction. -/
def State.correctForwardOne (s : State) : State :=
  if s.loop.backlog = 0 then s.stepForward.newlyReached s.nextS else s.stepForward

/-- R5: a forward correction of `n` counts, the positions newly reached in forward order. -/
def State.correctForward : Nat → State → State
  | 0, s => s
  | n + 1, s => State.correctForward n s.correctForwardOne

/-- R1, R6: a forward count in LOCKED or COASTING. Whether an overdue marker is declared before or
after the events of the position that the count newly reaches is free (log 4). -/
def State.forwardCount (s : State) : State :=
  let s1 := s.stepForward.modLoop fun c => { c with travel := c.travel + 1 }
  if s.loop.backlog = 0 then
    if s1.markerOverdue then
      if s1.freeBit then (s1.bumpFree.newlyReached s.nextS).declareMissing
      else
        let s2 := s1.bumpFree.declareMissing
        if s2.locked then s2.newlyReached s.nextS else s2
    else s1.newlyReached s.nextS
  else if s1.markerOverdue then s1.declareMissing
  else s1

/-- R1, R2: a backward count in LOCKED or COASTING. -/
def State.backwardCount (s : State) : State :=
  if s.loopLength / 2 < s.loop.backlog + 1 then s.lockLost
  else
    s.modLoop fun c =>
      { c with
        S := (c.S + (s.loopLength - 1)) % s.loopLength
        backlog := c.backlog + 1
        travel := c.travel - 1 }

/-- R5: a backward correction of `e` counts to 0; one that would take the backlog above L/2 loses
lock (R2; DEDUCED, log 27). -/
def State.correctBackward (s : State) (e : Nat) : State :=
  if s.loopLength / 2 < s.loop.backlog + e then s.lockLost
  else s.modLoop fun c => { c with S := 0, backlog := c.backlog + e }

/-- FREE VALUE outside -65535..65535 (1.1): the manual does not say what the window count becomes
(log 5). -/
def State.boundedWindow (s : State) (n : Int) : Int :=
  if (Config.windowCountMax : Int) < n ∨ n < -(Config.windowCountMax : Int) then
    Int.ofNat (Config.free s.freeCount % (2 * Config.windowCountMax + 1)) - Config.windowCountMax
  else n

/-- The state after `boundedWindow`: the counter moves if a free value was taken. -/
def State.afterWindow (s : State) (n : Int) : State :=
  if (Config.windowCountMax : Int) < n ∨ n < -(Config.windowCountMax : Int) then s.bumpFree else s

/-- R1: every count is taken into the window count. -/
def State.countWindow (s : State) (forward : Bool) : State :=
  let n := s.loop.windowCount + if forward then 1 else -1
  (s.afterWindow n).modLoop fun c => { c with windowCount := s.boundedWindow n }

/-! ### Markers (R3 to R5) -/

/-- R3: a marker acquires lock. -/
def State.acquireLock (s : State) : State :=
  let s1 := s.modLoop fun c =>
    { c with lock := .locked, S := 0, backlog := 0, frontier := 0, travel := 0, missing := 0 }
  (s1.newlyReached 0).queueReport (.loop .locked .locked)

/-- R4: what an accepted marker does after the correction. -/
def State.confirmLock (s : State) : State :=
  let s1 := s.modLoop fun c => { c with travel := 0, missing := 0 }
  if s.loop.lock = .coasting then
    (s1.modLoop fun c => { c with lock := .locked }).queueReport (.loop .locked .locked)
  else s1

/-- R4, R5: a marker taken in LOCKED or COASTING. Its error is S read in (−L/2, L/2]. -/
def State.testMarker (s : State) : State :=
  if 2 * s.loop.S ≤ s.loopLength then
    if s.loop.S ≤ s.cfgSlip then
      let s1 := s.correctBackward s.loop.S
      if s1.locked then s1.confirmLock else s1
    else s.lockLost
  else
    let e := s.loopLength - s.loop.S
    if e ≤ s.cfgSlip then (State.correctForward e s).confirmLock else s.lockLost

/-- The counts of a marker's forward correction, 0 if there is none (R5). -/
def State.markerForward (s : State) : Nat :=
  if 2 * s.loop.S ≤ s.loopLength then 0
  else if s.loopLength - s.loop.S ≤ s.cfgSlip then s.loopLength - s.loop.S
  else 0

/-- R3, R4: whether a marker raises an arrival: at lock acquired (position 0), or in a forward
correction beyond the backlog. -/
def State.markerArrives (s : State) : Bool :=
  if s.locked then s.arrivalAfter s.loop.frontier (s.markerForward - s.loop.backlog)
  else s.hasConfig

/-! ### Speed window (R13, R14) -/

/-- R13: the speed a window count forms. -/
def windowSpeed (n : Int) : Nat := min n.toNat Config.vsMax

/-- R13: vs, the overspeed flag and the next window. -/
def State.formSpeed (s : State) : State :=
  let fast := decide ((Config.vsMax : Int) < s.loop.windowCount)
  let s1 := s.modLoop fun c =>
    { c with
      vs := windowSpeed c.windowCount, overspeed := fast, windowCount := 0, windowTimer := 0 }
  if fast && !s.loop.overspeed then s1.queueReport (.loop s.loop.lock .overspeed) else s1

/-- R14: standstill count and motion state. -/
def State.formMotion (s : State) : State :=
  if s.loop.vs = 0 then
    let n := min (s.loop.standstill + 1) 3
    if n = 3 ∧ s.loop.motion = .moving then
      (s.modLoop fun c => { c with standstill := n, motion := .stopped }).queueReport
        (.loop s.loop.lock .stopped)
    else s.modLoop fun c => { c with standstill := n }
  else if s.loop.motion = .stopped then
    (s.modLoop fun c => { c with standstill := 0, motion := .moving }).queueReport
      (.loop s.loop.lock .moving)
  else s.modLoop fun c => { c with standstill := 0 }

end Sys2Proof.Machine
end

