-- ==== Sys2Proof/Machine/Pace.lean ====
section
/-! DEFINITION. The Pace Generator: target, called entry, hysteresis and aspects (chapter 8). -/

namespace Sys2Proof.Machine

/-! ### Target (R138) -/

/-- Span of the nominal parcel (R138). -/
def State.nominalSpan (s : State) : Span := if s.cfgNominal ≤ s.cfgSingle .l0 then .one else .two

/-- Candidates between λ_ref + G and H (R138). -/
def State.supply (s : State) : List (Nat × Nat) :=
  s.candidates (s.leadAt .l0 s.cfgNominal s.loop.vs) s.nominalSpan

/-- Lanes RUNNING (R138). -/
def State.runningLanes (s : State) : Nat :=
  bothLanes.countP fun l => (s.lane l).state == .running

/-- R138: 100·P·W·n / (vs·F), none above 6000 ms or when F is 0. -/
def targetOf (p w n vs f : Nat) : Option Nat :=
  if f = 0 then none
  else
    let t := 100 * p * w * n / (vs * f)
    if 6000 < t then none else some t

/-- R138: the target at a window end. -/
def State.paceTarget (s : State) : Option Nat :=
  if !s.locked || !s.online || s.loop.vs == 0 || decide (s.loop.vs < s.cfgMinSpeed) ||
      s.runningLanes == 0 then none
  else
    targetOf s.cfgP s.supply.length s.runningLanes s.loop.vs
      (s.supply.countP fun c => s.eligibleSpan c.2 s.nominalSpan)

/-! ### From target to entry (R139, R140) -/

/-- Interval of a cadence entry. -/
def interval (i : Nat) : Nat := Config.cadence[i]?.getD 6000

/-- The lowest index whose interval is at least the target (R139). -/
def calledIndex (target : Nat) : Nat := Config.cadence.findIdx fun i => decide (target ≤ i)

/-- R140: a called entry applied to the pace index; R139: the cadence becomes valid. -/
def PaceLane.call (p : PaceLane) (entry : Nat) : PaceLane :=
  if p.index ≤ entry then { p with index := entry, hyst := 0, valid := true }
  else if p.hyst + 1 = 5 then { p with index := entry, hyst := 0, valid := true }
  else { p with hyst := p.hyst + 1, valid := true }

/-- R139: a RUNNING lane at a window end. -/
def PaceLane.window (p : PaceLane) (target : Option Nat) (minEntry : Nat) : PaceLane :=
  match target with
  | none => { p with hyst := 0, valid := false }
  | some t => p.call (max (calledIndex t) minEntry)

/-- R143: in GO a timer at or beyond the present interval gives a pulse. -/
def PaceLane.pulseDue (p : PaceLane) : PaceLane :=
  if p.aspect = .go ∧ interval p.index ≤ p.pulse then { p with pulse := 0 } else p

/-- One lane at a window end (R139, R140, R143). -/
def State.paceLaneWindow (s : State) (target : Option Nat) (l : Lane) : State :=
  if (s.lane l).state = .running then
    s.modPaceLane l fun p => (p.window target (s.cfgMinEntry l)).pulseDue
  else s

/-- The Pace Generator takes a window end with a target: R138 to R140, and R141 for a standing loop. -/
def State.paceWindow (s : State) (target : Option Nat) : State :=
  let s1 := ((s.modPace fun p => { p with target := target }).paceLaneWindow target
    .l0).paceLaneWindow target .l1
  if s.loop.motion = .stopped then (s1.paceRestart .l0).paceRestart .l1 else s1

/-- The Pace Generator takes a window end at the target of that moment (R138). -/
def State.paceTake (s : State) : State := s.paceWindow s.paceTarget

/-! ### Aspects (R142) -/

/-- R142: the first row of the table that applies. -/
def State.aspectOf (s : State) (l : Lane) : Aspect :=
  let c := s.lane l
  match c.state with
  | .stopped => .off
  | .blocked | .fault => .stop
  | .paused => if s.cfgCapacity l ≤ c.entryFill then .stop else .wait
  | .running =>
    if s.cfgCapacity l ≤ c.entryFill then .stop
    else if !s.online then .wait
    else if c.entryFill + 1 = s.cfgCapacity l then .wait
    else if !s.locked then .wait
    else if !(s.pace.lanes.get l).valid then .wait
    else .go

/-- A lane's aspect becomes `a`: entering GO pulses at once, leaving it stops the pulse timer, and
entering WAIT starts the blink lit (R143, R144). -/
def PaceLane.become (p : PaceLane) (a : Aspect) : PaceLane :=
  if p.aspect = a then p
  else
    match a with
    | .go => { p with aspect := .go, pulse := 0 }
    | .wait => { p with aspect := .wait, blink := 0 }
    | .stop => { p with aspect := .stop }
    | .off => { p with aspect := .off }

/-- R142: the aspect of a lane is re-taken. -/
def State.retakeAspect (s : State) (l : Lane) : State :=
  s.modPaceLane l fun p => p.become (s.aspectOf l)

end Sys2Proof.Machine
end

