-- ==== Sys2Proof/Machine/Station.lean ====
section
/-! DEFINITION. Validation and APPLY (R159 to R162), JOIN, LEAVE and the end of LEAVING (R163 to R165),
reset (R166), and `settle`, the end of every event that may move parcels, plans or the station. -/

namespace Sys2Proof.Machine

/-! ### Validation (R160, R161) -/

/-- Range of a word on its own, as an unsigned number: low, high (10.2). Words 9, 37 to 47 and the
timeout words are judged elsewhere. -/
def wordRange (i : Nat) : Nat × Nat :=
  match i with
  | 0 => (0, 31)
  | 1 => (0, 2047999)
  | 2 => (16, 1024)
  | 3 => (400, 2000)
  | 4 => (0, 2047999)
  | 5 => (0, 2047999)
  | 6 => (1, 2047999)
  | 7 => (1, 2047999)
  | 8 => (0, 2000)
  | 10 => (200, 5000)
  | 11 => (0, 50)
  | 12 => (0, 600)
  | 13 => (0, 1)
  | 14 => (0, 2048000)
  | 15 => (0, 65535)
  | 16 => (0, 65535)
  | 17 => (1, 254)
  | 18 => (100, 2800)
  | _ => (0, 4294967295)

/-- Range of lane setting `j` (10.2). -/
def laneRange (j : Nat) : Nat × Nat :=
  match j with
  | 0 => (300, 6000)
  | 1 => (50, 600)
  | 2 => (2, 6)
  | 3 => (0, 65535)
  | 4 => (100, 2800)
  | 5 => (100, 2800)
  | 6 => (0, 3000)
  | 7 => (0, 15)
  | _ => (0, 4294967295)

/-- A value lies in a range, both ends included. -/
def inRange (r : Nat × Nat) (v : Nat) : Bool := decide (r.1 ≤ v) && decide (v ≤ r.2)

/-- R160: word `i` of a copy passes its own range. -/
def wordPasses (w : Words) (i : Nat) : Bool :=
  let v := wordAt w i
  if i = 3 then inRange (wordRange 3) v.toNat && v.toNat % 2 == 0
  else if i = 9 then decide (-250 ≤ v.toInt) && decide (v.toInt ≤ 250)
  else if 19 ≤ i ∧ i < 28 then inRange (laneRange (i - 19)) v.toNat
  else if 28 ≤ i ∧ i < 37 then inRange (laneRange (i - 28)) v.toNat
  else inRange (wordRange i) v.toNat

/-- R160: the first word that fails its own range. -/
def firstBadWord (w : Words) : Option Nat := (List.range 48).find? fun i => !wordPasses w i

/-- A value of a copy as an unsigned number. -/
def wv (w : Words) (i : Nat) : Nat := (wordAt w i).toNat

/-- Defect entries, 0..19, that name a tray (10.2). -/
def namingEntries (w : Words) : List Nat := (List.range 20).filter fun i => defectEntry w i != 0xFFFF

/-- The relations of R161 in order, each with the word named on failure: `some word` for a relation
that fails. -/
def relationFailures (w : Words) : List (Option Nat) :=
  let len := wv w 2 * wv w 3
  let zone := forwardDistance len (wv w 4) (wv w 5)
  let must := fun (ok : Bool) (word : Nat) => if ok then none else some word
  [must (decide (len ≤ 2048000)) 3,
   must (decide (wv w 1 < len)) 1,
   must (decide (wv w 4 < len)) 4,
   must (decide (wv w 5 < len) && wv w 5 != wv w 4) 5,
   must (decide (forwardDistance len (wv w 4) (wv w 1) < zone)) 1,
   must (decide (wv w 7 + zone < len)) 7,
   must (decide (wv w 6 < wv w 7)) 6,
   must (decide (wv w 23 < wv w 24)) 24,
   must (decide (wv w 32 < wv w 33)) 33,
   must (decide (wv w 21 + wv w 30 + 6 ≤ 16)) 30,
   ((namingEntries w).find? fun i => decide (wv w 2 ≤ defectEntry w i)).map fun i => 37 + i / 2,
   (namingEntries w)[16]?.map fun i => 37 + i / 2]

/-- R161: the word the first failing relation names. -/
def firstConflict (w : Words) : Option Nat := (relationFailures w).findSome? id

/-- R160, R161: the result of validating a copy. -/
def validate (w : Words) : ApplyResult :=
  match firstBadWord w with
  | some i => .outOfRange i
  | none =>
    match firstConflict w with
    | some i => .conflict i
    | none => .ok

/-! ### APPLY (R8, R159, R162) -/

/-- The station state changes. -/
def State.setStation (s : State) (st : Station) : State :=
  s.modTable fun t => { t with station := st }

/-- R8, R162: the Loop Tracker takes new geometry by returning to UNLOCKED; in lock the effects of R7 follow,
but the pace indices carry over unchanged (log 31). -/
def State.returnUnlocked (s : State) : State :=
  if s.locked then
    (s.lockLost.modPaceLane .l0 fun p => { p with index := s.pace.lanes.l0.index }).modPaceLane .l1
      fun p => { p with index := s.pace.lanes.l1.index }
  else s

/-- R162, OK: the copy is committed. -/
def State.commit (s : State) (w : Words) : State :=
  let s1 := s.returnUnlocked.modTable fun t =>
    { t with committed := w, station := .configured, applying := none }
  (s1.freshTrays.setDoubt 0).queueReport (.applyResult .ok)

/-- R162: an APPLY completes with the result validation found. -/
def State.completeApply (s : State) (a : Applying) : State :=
  match validate a.copy with
  | .ok => s.commit a.copy
  | result =>
    (s.modTable fun t =>
      { t with
        station := if a.fromConfigured then .configured else .unconfigured
        applying := none }).queueReport (.applyResult result)

/-! ### JOIN and LEAVE (R163, R164) -/

/-- R64: the Line Interface becomes ENABLED. -/
def LineIf.enable (c : LineIf) : LineIf :=
  { c with
    enabled := true, attempt := 0, backoff := 0, holdCount := 0, rx := .discarding, rxBuf := [],
    rxFault := false }

/-- R65: the Line Interface becomes DISABLED. -/
def LineIf.disable (c : LineIf) : LineIf :=
  { c with enabled := false, rx := .discarding, rxBuf := [], rxFault := false }

/-- R163: JOIN in CONFIGURED. -/
def State.joinLine (s : State) : State :=
  (s.joinTrays.modLine LineIf.enable).setStation .online

/-- R106: intake stops at LEAVE: measurement discarded, feed and transfer stopped. -/
def LaneCtl.leave (c : LaneCtl) : LaneCtl :=
  { c.discardMeasure with feed := false, transfer := none }

/-- R164: LEAVE in ONLINE. -/
def State.leaveLine (s : State) : State :=
  ((s.withdrawAll.modLane .l0 LaneCtl.leave).modLane .l1 LaneCtl.leave).setStation .leaving

/-! ### End of LEAVING (R21, R65, R106, R118, R165) -/

/-- R165: LEAVING may end: no launch runs and the transmit queue is empty. -/
def State.leavingDone (s : State) : Bool :=
  s.table.station == .leaving && !s.lanes.l0.launchRuns && !s.lanes.l1.launchRuns && s.txq.isEmpty

/-- R106, R165: a lane at the end of LEAVING becomes STOPPED with reason STATION; a lane that was not already
STOPPED reports it. -/
def State.laneLeft (s : State) (l : Lane) : State :=
  let s1 := s.modLane l fun c =>
    { c.deleteList with reason := .station, removal := c.removal || !c.parcels.isEmpty }
  if (s.lane l).state = .stopped then s1 else s1.enterLane l .stopped .station

/-- The lanes that report at the end of LEAVING. -/
def State.lanesRunningOn (s : State) : List Lane :=
  bothLanes.filter fun l => (s.lane l).state != .stopped

/-- R165: the station returns to CONFIGURED. The order of the lanes' LANE reports is free (log 4). -/
def State.endLeaving (s : State) : State :=
  let s1 := (s.modLine LineIf.disable).freshTrays.setDoubt 0
  let order := s.freeOrder s.lanesRunningOn ++ bothLanes.filter fun l => (s.lane l).state == .stopped
  let s2 := order.foldl State.laneLeft (s1.afterOrder s.lanesRunningOn)
  let s3 := ((s2.setPlans (.all none)).setTrig (.all none)).setAims (.all none)
  (s3.modPlanner fun p => { p with suspended := .all false }).setStation .configured

/-- R165: the test, and the return when it holds. -/
def State.testLeaving (s : State) : State := if s.leavingDone then s.endLeaving else s

/-! ### Reset (R16, R21, R66, R107, R118, R145, R157, R166) -/

/-- Every block returns to its reset state. The levels of the input lines, the commands waiting, the
tick and the free counter are no block's and stay (logs 4, 10, 15). -/
def State.resetBlocks (s : State) : State :=
  { State.reset with
    pins := s.pins, tick := s.tick, freeCount := s.freeCount, pending := s.pending }

/-! ### The end of an event -/

/-- R91: transfers begin. -/
def State.startTransfers (s : State) : State := (s.startTransfer .l0).startTransfer .l1

/-- R90: the feeds follow their conditions. -/
def State.updateFeeds (s : State) : State := (s.updateFeed .l0).updateFeed .l1

/-- R142: both aspects are re-taken. -/
def State.retakeAspects (s : State) : State := (s.retakeAspect .l0).retakeAspect .l1

/-- The transmit queue has become empty in the event (R64, R165). -/
def queueEmptied (before after : State) : Bool := !before.txq.isEmpty && after.txq.isEmpty

/-- The last part of an event: feeds (R90), the test of LEAVING where `test` or an emptied queue asks
for it (R165), aspects (R142), output lines. -/
def State.finish (s : State) (before : State) (test : Bool) : State :=
  let s1 := s.updateFeeds
  let s2 := if test || queueEmptied before s1 then s1.testLeaving else s1
  s2.retakeAspects.drive

/-- The end of an event that began in `before`: transfers begin (R91), then one planning event if
`planning` or the ending of a plan raises one (R122), then `finish`. A transfer begins before the
planning event (R91; log 6). -/
def State.settle (s : State) (before : State) (planning test : Bool) : State :=
  let s1 := s.startTransfers
  let s2 := if planning || planEnded before s then s1.planningEvent else s1
  s2.finish before test

end Sys2Proof.Machine
end

