-- ==== Sys2Proof/Machine/LoopCommands.lean ====
section
/-! DEFINITION. The meanings of the loop commands: ENCODER_COUNT, MARKER_PULSE, MARKER_MISSING,
WINDOW_END, YIELD_CHANGE. -/

namespace Sys2Proof.Machine

/-- R151, R166: while RSTN is asserted the part holds its reset state; an event then changes nothing
(log 25). -/
def State.unlessHeld (s : State) (event : State → State) : Host.Outcome State Fault Refusal :=
  .next (if s.pins.rstLow then s else event s)

/-- The levels of CHK and LVL at a command (R9; log 10). -/
def State.sample (s : State) (chk lvl : Bool) : State :=
  s.modPins fun p => { p with chk := chk, lvl := lvl }

/-- R1, R2, R6: what a count does beyond the window count. -/
def State.loopCount (s : State) (forward : Bool) : State :=
  if s.locked then if forward then s.forwardCount else s.backwardCount else s

/-- A count raises an arrival (R122): a forward count in lock that newly reaches an arrival
position. -/
def State.countArrives (s : State) (forward : Bool) : Bool :=
  s.locked && forward && s.loop.backlog == 0 && (s.arrivalAt s.nextS).isSome

/-- ENCODER_COUNT (R1, R2, R6, R9, R11, R12). -/
def execEncoderCount (forward chk lvl : Bool) (s : State) : Host.Outcome State Fault Refusal :=
  s.unlessHeld fun s =>
    (((s.sample chk lvl).countWindow forward).loopCount forward).settle s
      (s.countArrives forward) false

/-- MARKER_PULSE (R3, R4, R5). -/
def execMarkerPulse (chk lvl : Bool) (s : State) : Host.Outcome State Fault Refusal :=
  s.unlessHeld fun s =>
    let s1 := s.sample chk lvl
    let s2 :=
      if s.locked then s1.testMarker else if s.hasConfig then s1.acquireLock else s1
    s2.settle s s.markerArrives false

/-- MARKER_MISSING (R6): K has passed L plus the slip tolerance. The command says so; K is taken
there (log 1). -/
def execMarkerMissing (s : State) : Host.Outcome State Fault Refusal :=
  s.unlessHeld fun s =>
    if s.locked then
      ((s.modLoop fun c => { c with travel := s.loopLength + s.cfgSlip + 1 }).declareMissing).settle
        s false false
    else s

/-- The Launch Planner and the Pace Generator each take a window end whole (R132, R138). FREE VALUE: which of
them takes it first is open, and free where it matters (log 4). The Planner reads no pace and the Pace
Generator moves nothing else, so that the two orders differ in the pace alone. -/
def State.windowBlocks (s : State) : State :=
  let plannerFirst := s.plannerWindow.paceTake
  let paceFirst := s.paceTake.plannerWindow
  if plannerFirst.pace = paceFirst.pace then plannerFirst
  else if plannerFirst.freeBit then paceFirst.bumpFree
  else plannerFirst.bumpFree

/-- WINDOW_END (R13, R14, R15, R132, R138). -/
def execWindowEnd (s : State) : Host.Outcome State Fault Refusal :=
  s.unlessHeld fun s => s.formSpeed.formMotion.windowBlocks.finish s false

/-- YIELD_CHANGE (R38, R39): the level alone changes; eligibility tests made later use it. -/
def execYieldChange (asserted : Bool) (s : State) : Host.Outcome State Fault Refusal :=
  .next (s.modPins fun p => { p with yieldIn := asserted })

end Sys2Proof.Machine
end

