-- ==== Sys2Proof/Machine/LineCommands.lean ====
section
/-! DEFINITION. The meanings of the induction line's commands: frames heard or rejected, and the life
of the head entry of the transmit queue (chapters 3 and 4). -/

namespace Sys2Proof.Machine

/-! ### Reception -/

/-- The receiver takes frames in: ENABLED, and not waiting for the line to be high (R49). -/
def State.hears (s : State) : Bool := s.line.enabled && s.line.rx != .discarding

/-- The end of a frame is found: the receiver is HUNTING with an empty buffer, the idle run at `run`
(R47, R49). -/
def LineIf.frameEnd (run : Nat) (c : LineIf) : LineIf :=
  { c with rx := .hunting, rxBuf := [], rxFault := false, idleRun := run }

/-- Whether the stop bit of a buffer's last byte read low (R47, R49): where the command says so, and where the
receiver holds the framing-fault mark of a collision on that very stop bit (R59), no byte beyond it. -/
def LineIf.lastStopLow (c : LineIf) (bytes : List Byte) (stops : StopBits) : Bool :=
  stops == .lastLow || (c.rxFault && decide (bytes.length ≤ c.rxBuf.length))

/-- The idle run at the end of a frame of the given bytes: ten high bits after a last stop bit that read low,
the run of a good one otherwise (R47). -/
def runAfterStop (bytes : List Byte) (low : Bool) : Nat := if low then 10 else endRun bytes

/-- The end of a frame of the given bytes is found (R47, R49). -/
def State.endFrame (s : State) (bytes : List Byte) (stops : StopBits) : State :=
  s.modLine (LineIf.frameEnd (runAfterStop bytes (s.line.lastStopLow bytes stops)))

/-- A heard frame of good form and check: the rest of R50, then R51 or R52. Not taken in by a
receiver that is off or DISCARDING (R49; log 17). A receiver that already holds the framing-fault mark
of a collision on a stop bit (R59) fails the frame's check (R50). -/
def State.hear (s : State) (f : FrameData) : Host.Outcome State Fault Refusal :=
  s.unlessHeld fun s =>
    if s.hears then
      let s1 := s.endFrame (frameBytes f) .good
      if s.line.rxFault then (s1.rejectFrame .crc f.kind.code).settle s false false
      else (s1.receiveFrame f).settle s false false
    else s

/-- CLAIM_HEARD (R70 to R75). -/
def execClaimHeard (station location tray : Nat) (span : Span) (lane : Lane) (s : State) :
    Host.Outcome State Fault Refusal :=
  s.hear { kind := .claim lane, station := station, location := location, tray := tray, span := span }

/-- RELEASE_HEARD (R76, R77). -/
def execReleaseHeard (station location tray : Nat) (span : Span) (s : State) :
    Host.Outcome State Fault Refusal :=
  s.hear { kind := .release, station := station, location := location, tray := tray, span := span }

/-- LOADED_HEARD (R78, R80, R81). -/
def execLoadedHeard (station location tray : Nat) (span : Span) (chute : Byte) (double : Bool)
    (s : State) : Host.Outcome State Fault Refusal :=
  s.hear
    { kind := .loaded chute double, station := station, location := location, tray := tray,
      span := span }

/-- OCCUPIED_HEARD (R79, R80, R81). -/
def execOccupiedHeard (station location tray : Nat) (span : Span) (s : State) :
    Host.Outcome State Fault Refusal :=
  s.hear { kind := .occupied, station := station, location := location, tray := tray, span := span }

/-- DEFECT_HEARD (R82, R83). -/
def execDefectHeard (station location tray : Nat) (span : Span) (s : State) :
    Host.Outcome State Fault Refusal :=
  s.hear { kind := .defect, station := station, location := location, tray := tray, span := span }

/-- R49: a tenth byte begins before the frame has ended: LENGTH at once, and DISCARDING. -/
def State.overrun (s : State) (bytes : List Byte) : State :=
  (s.modLine fun c => { c with rx := .discarding, rxBuf := [], rxFault := false, idleRun := 0 }).rejectFrame
    .length (kindCodeOf bytes)

/-- The framing-fault mark of the buffer at the frame's end: set by a byte the command adds, or held since a
collision on a stop bit (R49, R59). -/
def State.faultMark (s : State) (stops : StopBits) : Bool := stops != .good || s.line.rxFault

/-- RECEIVED_FRAME_REJECTED (R49 to R51): the buffer is checked in the order of R50. A buffer that
passes every check is no rejected frame and is handed on (R52; log 18). -/
def execReceivedFrameRejected (bytes : List Byte) (stops : StopBits) (tenthByte : Bool)
    (s : State) :
    Host.Outcome State Fault Refusal :=
  s.unlessHeld fun s =>
    if s.hears then
      if tenthByte then (s.overrun bytes).settle s false false
      else
        let s1 := s.endFrame bytes stops
        match parseFrame bytes (s.faultMark stops) with
        | .error why => (s1.rejectFrame why (kindCodeOf bytes)).settle s false false
        | .ok f => (s1.receiveFrame f).settle s false false
    else s

/-- RECEIVER_ENTERS_HUNTING (R49). -/
def execReceiverEntersHunting (s : State) : Host.Outcome State Fault Refusal :=
  s.unlessHeld fun s =>
    if s.line.enabled && s.line.rx == .discarding then
      s.modLine fun c =>
        { c with rx := .hunting, rxBuf := [], rxFault := false, idleRun := max c.idleRun 10 }
    else s

/-! ### Sending -/

/-- The head entry, if the Line Interface is ENABLED. -/
def State.head? (s : State) : Option TxEntry := if s.line.enabled then s.txq.head? else none

/-- R58: the re-check of a head CLAIM: its plan is TENTATIVE and every tray it names is OWN with that
plan's reference. A CLAIM marked as of an ended plan (R56) has no such plan. -/
def State.recheck (s : State) (e : TxEntry) : Bool :=
  match e.livePlan? with
  | some ref =>
    (match s.planOf? ref with
     | some p => p.state == .tentative
     | none => false) &&
    (s.namedTrays e.tray e.span).all fun k =>
      match s.tray? k with
      | some r => r.cond == .own && r.plan == some ref
      | none => false
  | none => false

/-- The line has been idle for 24 bit times: the hold count is 0, and a receiver that waited for ten
high bit times has entered HUNTING (R47, R49, R61). -/
def LineIf.sawIdle (c : LineIf) : LineIf :=
  { c with
    idleRun := Config.idleBits, holdCount := 0
    rx := if c.rx = .discarding then .hunting else c.rx }

/-- The head entry's phase becomes SENDING; the first start bit drives the line low, and the receiver
takes in the station's own bits (R49, R58; log 19). -/
def State.beginAttempt (s : State) : State :=
  (s.setTxq (s.txq.modifyHead fun e => { e with phase := .sending })).modLine
    fun c => { c with idleRun := 0, holdCount := 0, rx := .receiving, rxBuf := [], rxFault := false }

/-- The head CLAIM leaves the queue and its plan, if live, ends by withdrawal (R58, R63). -/
def State.withdrawHead (s : State) (e : TxEntry) : State :=
  match e.livePlan? with
  | some ref => (s.dropEntry 0).endRef .withdraw ref
  | none => s.dropEntry 0

/-- FRAME_ATTEMPT_START (R58): the line is idle, which the command says; the head must be WAITING with
no backoff count standing. -/
def execFrameAttemptStart (s : State) : Host.Outcome State Fault Refusal :=
  s.unlessHeld fun s =>
    match s.head? with
    | some e =>
      if e.phase = .waiting ∧ s.line.backoff = 0 then
        if e.kind.isClaim && !s.recheck e then
          ((s.modLine LineIf.sawIdle).withdrawHead e).settle s false false
        else s.beginAttempt
      else s
    | none => s

/-- R63: the head entry is abandoned. -/
def State.abandonHead (s : State) (e : TxEntry) : State :=
  if e.kind.isClaim then s.withdrawHead e else (s.dropEntry 0).reportDropped e

/-- R60: the backoff after the failed attempt numbered `attempt`. -/
def State.backoffAfter (s : State) (attempt : Nat) : Nat :=
  24 + (s.stationNumber + 1) * 16 + (attempt - 1) * 32

/-- R60: the head entry's attempt fails. -/
def State.failAttempt (s : State) (e : TxEntry) : State :=
  let n := s.line.attempt + 1
  if Config.attemptLimit ≤ n then s.abandonHead e
  else
    (s.setTxq (s.txq.modifyHead fun e => { e with phase := .waiting })).modLine
      fun c => { c with attempt := n, backoff := s.backoffAfter n }

/-- Bit `bit` of a frame, from 0, is the stop bit of its byte (R46). -/
def isStopBit (bit : Nat) : Bool := bit % 10 == 9

/-- Bytes whole in the receiver once bit `bit` of a frame has been read: a stop bit ends its byte (R46,
R49). -/
def bytesRead (bit : Nat) : Nat := bit / 10 + if isStopBit bit then 1 else 0

/-- R59: what the receiver holds after bit `bit`, sent as `sent`, reads back otherwise. After a collision it
is RECEIVING with the bytes whole so far; a stop bit that reads low leaves its byte kept and the
framing-fault mark set (R49). After a line fault it is DISCARDING; the idle run counts the high bits up to
this one, and the 24 before the frame where no bit has read low (R47, R58). -/
def State.readBack (s : State) (e : TxEntry) (bit : Nat) (sent : Bool) : State :=
  if sent then
    s.modLine fun c =>
      { c with
        rx := .receiving, rxBuf := (frameBytes (s.frameOf e)).take (bytesRead bit)
        rxFault := isStopBit bit, idleRun := 0 }
  else
    s.modLine fun c =>
      { c with
        rx := .discarding, rxBuf := [], rxFault := false
        idleRun := idleRunAfter (List.replicate Config.idleBits true ++
          (frameBits (s.frameOf e)).take bit ++ [true]) }

/-- R59, R56, R60: the attempt of the head ends at a bit sent as `sent` that reads back otherwise. A collision
removes a CLAIM marked as of an ended plan; every other failure is R60's. -/
def State.endAttempt (s : State) (e : TxEntry) (sent : Bool) : State :=
  if sent && e.ended then s.dropEntry 0 else s.failAttempt e

/-- ATTEMPT_COLLISION (R59, R60): bit `bit` of the frame being sent reads back otherwise. -/
def execAttemptCollision (bit : Nat) (s : State) : Host.Outcome State Fault Refusal :=
  s.unlessHeld fun s =>
    match s.head? with
    | some e =>
      if e.phase = .sending then
        match (frameBits (s.frameOf e))[bit]? with
        | some sent => ((s.readBack e bit sent).endAttempt e sent).settle s false false
        | none => s
      else s
    | none => s

/-- BACKOFF_EXPIRED (R60): the head's backoff count runs to 0. -/
def execBackoffExpired (s : State) : Host.Outcome State Fault Refusal :=
  s.unlessHeld fun s =>
    match s.head? with
    | some e =>
      if e.phase = .waiting then s.modLine fun c => { c with backoff := 0 } else s
    | none => s

/-- LINE_HELD (R61): the hold count reaches 1000 while the head waits. -/
def execLineHeld (s : State) : Host.Outcome State Fault Refusal :=
  s.unlessHeld fun s =>
    match s.head? with
    | some e =>
      if e.phase = .waiting then
        ((s.modLine fun c => { c with holdCount := 0 }).failAttempt e).settle s false false
      else s
    | none => s

/-- R31, R69: this station's completed frame is taken by its Tray Map and Launch Planner: a CLAIM whose
plan is TENTATIVE makes it CLAIMED; no other own frame changes a record. -/
def State.ownFrame (s : State) (e : TxEntry) : State :=
  match e.plan with
  | some ref =>
    match s.slotOf? ref.lane ref.tag with
    | some sl =>
      s.setPlan ref.lane sl ((s.plan ref.lane sl).map fun p =>
        if p.state = .tentative then { p with state := .claimed } else p)
    | none => s
  | none => s

/-- R62: the head entry's frame completes. A CLAIM of an ended plan is followed by a RELEASE. -/
def State.completeHead (s : State) (e : TxEntry) : State :=
  let s1 := (s.dropEntry 0).modLine fun c =>
    { c with
      idleRun := idleRunAfter (frameBits (s.frameOf e))
      rx := .hunting, rxBuf := [], rxFault := false }
  if e.ended then s1.placeFrame .release e.tray e.span else s1.ownFrame e

/-- FRAME_TX_COMPLETE (R59, R62). -/
def execFrameTxComplete (s : State) : Host.Outcome State Fault Refusal :=
  s.unlessHeld fun s =>
    match s.head? with
    | some e => if e.phase = .sending then (s.completeHead e).settle s false false else s
    | none => s

/-- ENTRY_ABANDONED (R63): the head's attempt count has reached 16, which the command says (log 1). -/
def execEntryAbandoned (s : State) : Host.Outcome State Fault Refusal :=
  s.unlessHeld fun s =>
    match s.head? with
    | some e => (s.abandonHead e).settle s false false
    | none => s

end Sys2Proof.Machine
end

