-- ==== Sys2Proof/Machine/LaneCommands.lean ====
section
/-! DEFINITION. The meanings of the lane commands: eyes, belt encoder, timeouts and button (chapter 5),
and of the lamp timers (chapter 8). -/

namespace Sys2Proof.Machine

/-! ### Entry eye and belt encoder -/

/-- The level of a lane's entry eye. -/
def State.setEntryEye (s : State) (l : Lane) (blocked : Bool) : State :=
  s.modPins fun p => { p with entryEye := p.entryEye.set l blocked }

/-- The level of a lane's merge eye. -/
def State.setMergeEye (s : State) (l : Lane) (blocked : Bool) : State :=
  s.modPins fun p => { p with mergeEye := p.mergeEye.set l blocked }

/-- R86: entry eye blocked edges are taken: station ONLINE, lane RUNNING or PAUSED. -/
def State.takesEntry (s : State) (l : Lane) : Bool :=
  s.online && ((s.lane l).state == .running || (s.lane l).state == .paused)

/-- ENTRY_EYE_BLOCKED (R85, R86). An eye that reads blocked already gives no edge (log 12). -/
def execEntryEyeBlocked (l : Lane) (s : State) : Host.Outcome State Fault Refusal :=
  let s1 := s.setEntryEye l true
  s1.unlessHeld fun s1 =>
    if s.pins.entryEye.get l then s1
    else if s1.takesEntry l then (s1.entryEdge l).settle s1 false false
    else s1

/-- ENTRY_EYE_CLEAR (R87): ends a measurement in progress. -/
def execEntryEyeClear (l : Lane) (s : State) : Host.Outcome State Fault Refusal :=
  (s.setEntryEye l false).unlessHeld fun s1 =>
    match (s1.lane l).measuring? with
    | some r => (s1.endMeasure l r).settle s1 false false
    | none => s1

/-- R87: a count with the gap test armed; at the minimum gap the test is disarmed. -/
def LaneCtl.countGap (c : LaneCtl) (minGap : Nat) : LaneCtl :=
  if c.gapTest.isSome then
    { c with
      gapCount := c.gapCount + 1
      gapTest := if minGap ≤ c.gapCount + 1 then none else c.gapTest }
  else c

/-- R86: a count with a measurement in progress. -/
def LaneCtl.countMeasure (c : LaneCtl) : LaneCtl :=
  if c.measuring?.isSome then { c with measure := c.measure + 1 } else c

/-- R88: the measurement count has reached the limit. -/
def LaneCtl.atLimit (c : LaneCtl) : Bool :=
  c.measuring?.isSome && decide (Config.measureLimit ≤ c.measure)

/-- BELT_ENCODER_COUNT (R86 to R88): a count taken while the entry belt runs; a stopped
belt has none (log 33). -/
def execBeltEncoderCount (l : Lane) (s : State) : Host.Outcome State Fault Refusal :=
  s.unlessHeld fun s =>
    if s.entryBeltRuns l then
      let s1 := s.modLane l fun c => (c.countGap (s.cfgMinGap l)).countMeasure
      if (s1.lane l).atLimit then (s1.measureLimit l).settle s false false else s1
    else s

/-- GAP_COUNT_REACHED (R87): an armed gap test is disarmed at the minimum gap. -/
def execGapCountReached (l : Lane) (s : State) : Host.Outcome State Fault Refusal :=
  s.unlessHeld fun s =>
    if (s.lane l).gapTest.isSome then
      s.modLane l fun c => { c with gapCount := s.cfgMinGap l, gapTest := none }
    else s

/-- MEASUREMENT_LIMIT (R88). -/
def execMeasurementLimit (l : Lane) (s : State) : Host.Outcome State Fault Refusal :=
  s.unlessHeld fun s => (s.measureLimit l).settle s false false

/-! ### Hold and launch eyes -/

/-- R90, R113: the front QUEUED record becomes HOLDING, its destination resolved, its hold time
taken. -/
def State.toHolding (s : State) (l : Lane) (r : Parcel) : State :=
  s.modParcel l r.tag fun r =>
    { r with
      place := .holding
      dest := some (resolveDest s.cfgNoRead r.scan)
      holdTick := some s.tick }

/-- HOLD_EYE_BLOCKED (R90, R91, R113): taken while the feed runs. -/
def execHoldEyeBlocked (l : Lane) (s : State) : Host.Outcome State Fault Refusal :=
  s.unlessHeld fun s =>
    if (s.lane l).feed then
      match (s.lane l).at? .queued with
      | some r => (s.toHolding l r).settle s true false
      | none => s
    else s

/-- LAUNCH_EYE_BLOCKED (R91): completes a transfer. -/
def execLaunchEyeBlocked (l : Lane) (s : State) : Host.Outcome State Fault Refusal :=
  s.unlessHeld fun s =>
    if (s.lane l).transfer.isSome then
      (s.modLane l fun c =>
        { c with
          parcels := c.parcels.map fun r =>
            if r.place = .transferring then { r with place := .ready } else r
          transfer := none }).settle s false false
    else s

/-! ### Faults (R92, R97, R102) -/

/-- R102: the belts stop: measurement discarded, feed and timers idle, a launch in progress aborted. -/
def LaneCtl.haltAll (c : LaneCtl) : LaneCtl :=
  { c.discardMeasure with
    feed := false, transfer := none
    launch := c.launch.map fun e => { e with aborted := true } }

/-- R97, R102: every plan of the lane ends, a LAUNCHED one by abandonment and the others by withdrawal.
The order is free (log 4). -/
def State.endLanePlans (s : State) (l : Lane) : State :=
  (s.freeOrder (s.slotsByAge l)).foldl
    (fun s sl =>
      match s.plan l sl with
      | some p => s.endPlan (if p.state = .launched then .abandon else .withdraw) l sl
      | none => s)
    (s.afterOrder (s.slotsByAge l))

/-- R102: a lane enters FAULT. -/
def State.enterFault (s : State) (l : Lane) (reason : LaneReason) : State :=
  ((s.modLane l LaneCtl.haltAll).endLanePlans l).enterLane l .fault reason

/-- TRANSFER_TIMEOUT (R92, R102): the transfer timer has reached its timeout (log 1). -/
def execTransferTimeout (l : Lane) (s : State) : Host.Outcome State Fault Refusal :=
  s.unlessHeld fun s =>
    if (s.lane l).transfer.isSome then
      (s.enterFault l .transferTimeout).settle s false false
    else s

/-- MERGE_TIMEOUT (R97, R102, R165): the merge timer has reached its timeout (log 1). -/
def execMergeTimeout (l : Lane) (s : State) : Host.Outcome State Fault Refusal :=
  s.unlessHeld fun s =>
    if (s.lane l).launchRuns then (s.enterFault l .mergeTimeout).settle s false true else s

/-! ### Merge eye (R94, R95) -/

/-- R94: a blocked edge during a launch sets the merge-seen flag. -/
def LaneCtl.seeMerge (c : LaneCtl) : LaneCtl :=
  { c with launch := c.launch.map fun e => if e.aborted then e else { e with mergeSeen := true } }

/-- MERGE_EYE_BLOCKED (R94). -/
def execMergeEyeBlocked (l : Lane) (s : State) : Host.Outcome State Fault Refusal :=
  (s.setMergeEye l true).unlessHeld fun s1 => s1.modLane l LaneCtl.seeMerge

/-- The scan id of an INDUCTED report: 65535 for a parcel without a scan (R117). -/
def Parcel.reportId (r : Parcel) : ScanId :=
  match r.scan with
  | some sc => sc.id
  | none => 65535

/-- The destination chute of a record (R117). A launched record has one (R113). -/
def Parcel.chute (r : Parcel) : Byte :=
  match r.dest with
  | some d => d.chute
  | none => 0

/-- R94, R95, R136: the merge completion of launch `e` of record `r`. A launch whose plan has been
abandoned places no LOADED frame and ends no plan. -/
def State.mergeComplete (s : State) (l : Lane) (e : Launch) (r : Parcel) : State :=
  let s1 :=
    match r.planSlot with
    | some _ => s.placeFrame (.loaded r.chute e.double) e.tray e.span
    | none => s
  let s2 := s1.queueReport (.inducted l r.tag r.reportId e.tray r.chute e.span e.double)
  let s3 :=
    match r.planSlot with
    | some sl => s2.succeed l sl
    | none => s2
  s3.modLane l fun c => { c.dropParcel r.tag with launch := none }

/-- MERGE_EYE_CLEAR (R94, R95, R117, R136): with merge-seen set, the merge completion. -/
def execMergeEyeClear (l : Lane) (s : State) : Host.Outcome State Fault Refusal :=
  (s.setMergeEye l false).unlessHeld fun s1 =>
    match (s1.lane l).launch, (s1.lane l).at? .launching with
    | some e, some r =>
      if e.mergeSeen && !e.aborted then (s1.mergeComplete l e r).settle s1 true true else s1
    | _, _ => s1

/-! ### Button (R101) -/

/-- R101: a press acted on in BLOCKED: the entry eye reads clear, or the lane's own measurement is
in progress. -/
def State.mayAcknowledge (s : State) (l : Lane) : Bool :=
  !s.pins.entryEye.get l || (s.lane l).measuring?.isSome

/-- R101: what a press does. -/
def State.press (s : State) (l : Lane) : State :=
  match (s.lane l).state with
  | .running => s.enterLane l .paused .button
  | .paused => s.enterLane l .running .button
  | .blocked =>
    if s.mayAcknowledge l then (s.modLane l LaneCtl.deleteNamed).enterLane l .running .button else s
  | .stopped | .fault => s

/-- BUTTON_PRESS (R101): the asserted edge; a press when the button has read released for 20 ms. -/
def execButtonPress (l : Lane) (s : State) : Host.Outcome State Fault Refusal :=
  (s.modPins fun p => { p with button := p.button.set l true }).unlessHeld fun s1 =>
    let s2 := s1.modLane l fun c => { c with buttonFilter := 0 }
    if Config.filterMs ≤ (s1.lane l).buttonFilter then (s2.press l).settle s1 false false else s2

/-- BUTTON_FILTER_ELAPSED (R101): the button has read released for 20 ms. -/
def execButtonFilterElapsed (l : Lane) (s : State) : Host.Outcome State Fault Refusal :=
  (s.modPins fun p => { p with button := p.button.set l false }).unlessHeld fun s1 =>
    s1.modLane l fun c => { c with buttonFilter := Config.filterMs }

/-! ### Lamp timers (R143, R144) -/

/-- GO_PULSE (R143): in GO a pulse timer that has reached the interval of the present pace index gives a pulse
and starts again from 0. The index may have changed since the timer fell due: a timer short of the present
interval gives none. -/
def execGoPulse (l : Lane) (s : State) : Host.Outcome State Fault Refusal :=
  s.unlessHeld fun s => (s.modPaceLane l PaceLane.pulseDue).drive

/-- GO_PULSE_END (R143): in GO the lamp has been lit for 250 ms. -/
def execGoPulseEnd (l : Lane) (s : State) : Host.Outcome State Fault Refusal :=
  s.unlessHeld fun s =>
    (s.modPaceLane l fun p =>
      if p.aspect = .go then { p with pulse := max p.pulse Config.pulseMs } else p).drive

/-- The blink timer at its next change of the STOP lamp (R144). -/
def PaceLane.blinkNext (p : PaceLane) : PaceLane :=
  { p with blink := if p.blink < Config.pulseMs then Config.pulseMs else 0 }

/-- WAIT_BLINK (R144): in WAIT the blink timer reaches 250 ms, and the lamp goes dark, or 1000 ms,
and it is lit. -/
def execWaitBlink (l : Lane) (s : State) : Host.Outcome State Fault Refusal :=
  s.unlessHeld fun s =>
    (s.modPaceLane l fun p => if p.aspect = .wait then p.blinkNext else p).drive

end Sys2Proof.Machine
end

