-- ==== Sys2Proof/Machine/PortCommands.lean ====
section
/-! DEFINITION. The meanings of the local port's commands: bytes and select periods (9.2), the parser
(9.3), and the sixteen messages, sent direct or taken by the parser (chapters 2, 5, 6, 9, 10). -/

namespace Sys2Proof.Machine

/-! ### The messages (9.3) -/

/-- A message whole, as the parser hands it over. -/
inductive Message
  | scan (lane : Byte) (id : ScanId) (chute flags : Byte)
  | start (lane : Byte)
  | stop (lane : Byte)
  | pause (lane : Byte)
  | resume (lane : Byte)
  | setPointer (index : Byte)
  | loadWord (value : Word)
  | loadWordNext (value : Word)
  | apply
  | join
  | leave
  | readTray (tray : BitVec 16)
  | clearDefect (tray : BitVec 16)
  | identify
  | clearFlags
  | reset
  deriving DecidableEq, Repr

/-- A message as the lane computer sends it, code first, most significant byte first (9.3). -/
def Message.bytes : Message → List Byte
  | .scan lane id chute flags =>
      [0x10, lane, BitVec.ofNat 8 (id.toNat / 256), BitVec.ofNat 8 id.toNat, chute, flags]
  | .start lane => [0x11, lane]
  | .stop lane => [0x12, lane]
  | .pause lane => [0x13, lane]
  | .resume lane => [0x14, lane]
  | .setPointer index => [0x20, index]
  | .loadWord value => 0x21 :: wordBytes value
  | .loadWordNext value => 0x22 :: wordBytes value
  | .apply => [0x23]
  | .join => [0x24]
  | .leave => [0x25]
  | .readTray tray => [0x30, BitVec.ofNat 8 (tray.toNat / 256), BitVec.ofNat 8 tray.toNat]
  | .clearDefect tray => [0x31, BitVec.ofNat 8 (tray.toNat / 256), BitVec.ofNat 8 tray.toNat]
  | .identify => [0x40]
  | .clearFlags => [0x41]
  | .reset => [0x7E]
where
  wordBytes (v : Word) : List Byte :=
    [BitVec.ofNat 8 (v.toNat / 16777216), BitVec.ofNat 8 (v.toNat / 65536),
      BitVec.ofNat 8 (v.toNat / 256), BitVec.ofNat 8 v.toNat]

/-- COMMAND_ERROR is set (R154). -/
def State.setCommandError (s : State) : State := s.modPort fun p => { p with commandError := true }

/-- A refused message: COMMAND_ERROR and nothing else. -/
def State.refuseMessage (s : State) : State := s.setCommandError.drive

/-- A lane message: its lane byte names a lane, or it is refused (R105, R108). -/
def State.onLane (s : State) (lane : Byte) (act : Lane → State) : State :=
  match laneOfByte lane with
  | some l => act l
  | none => s.refuseMessage

/-- The scan a SCAN message carries: NO_READ in bit 0 and MULTI_READ in bit 1 of its flags (9.3). -/
def scanOf (id : ScanId) (chute flags : Byte) : Scan :=
  { id := id, chute := chute, noRead := flags.getLsbD 0, multiRead := flags.getLsbD 1 }

/-- R108: SCAN. -/
def State.actScan (s : State) (lane : Byte) (id : ScanId) (chute flags : Byte) : State :=
  s.onLane lane fun l => (s.takeScan l (scanOf id chute flags)).drive

/-- R105: START is taken in STOPPED, the station ONLINE. -/
def State.actStart (s : State) (lane : Byte) : State :=
  s.onLane lane fun l =>
    if s.online && (s.lane l).state == .stopped then
      (s.enterLane l .running .command).settle s false false
    else s.refuseMessage

/-- R105: the lane's unlaunched plans are withdrawn at a STOP; their order is free (log 4). -/
def State.stopPlans (s : State) (l : Lane) : State :=
  (s.afterOrder (s.slotsByAge l)).withdrawSlots l (s.freeOrder (s.slotsByAge l))

/-- R105: STOP is taken in every lane state. In STOPPED no LANE report is queued and the state stays. -/
def State.stopLane (s : State) (l : Lane) : State :=
  let s1 := (s.stopPlans l).modLane l LaneCtl.stopList
  if (s.lane l).state = .stopped then s1 else s1.enterLane l .stopped .command

/-- R105: STOP. -/
def State.actStop (s : State) (lane : Byte) : State :=
  s.onLane lane fun l => (s.stopLane l).settle s false false

/-- R105: PAUSE is taken in RUNNING, and in PAUSED without effect. -/
def State.actPause (s : State) (lane : Byte) : State :=
  s.onLane lane fun l =>
    match (s.lane l).state with
    | .running => (s.enterLane l .paused .command).settle s false false
    | .paused => s
    | .stopped | .blocked | .fault => s.refuseMessage

/-- R102, R105: RESUME is taken in PAUSED, and in FAULT, which it clears. -/
def State.actResume (s : State) (lane : Byte) : State :=
  s.onLane lane fun l =>
    match (s.lane l).state with
    | .paused => (s.enterLane l .running .command).settle s false false
    | .fault =>
      ((s.modLane l LaneCtl.deleteList).enterLane l .paused .command).settle s false false
    | .stopped | .running | .blocked => s.refuseMessage

/-- R158: SET_POINTER. -/
def State.actSetPointer (s : State) (index : Byte) : State :=
  if index.toNat < Config.wordCount then s.modTable fun t => { t with pointer := index.toNat }
  else s.refuseMessage

/-- R158: the working word at the pointer is written. -/
def ConfigTable.write (t : ConfigTable) (value : Word) : ConfigTable :=
  { t with working := t.working.setIfInBounds t.pointer value }

/-- R158: LOAD_WORD. -/
def State.actLoadWord (s : State) (value : Word) : State := s.modTable fun t => t.write value

/-- R158: LOAD_WORD_NEXT; the pointer goes from 47 back to 0. -/
def State.actLoadWordNext (s : State) (value : Word) : State :=
  s.modTable fun t => { t.write value with pointer := (t.pointer + 1) % Config.wordCount }

/-- R159: APPLY in UNCONFIGURED or CONFIGURED. -/
def ConfigTable.beginApply (t : ConfigTable) : ConfigTable :=
  { t with
    station := .applying
    applying :=
      some { copy := t.working, fromConfigured := t.station == .configured, timer := 0 } }

/-- R159: APPLY. Taken in APPLYING it does not come here (R149). -/
def State.actApply (s : State) : State :=
  match s.table.station with
  | .unconfigured | .configured => (s.modTable ConfigTable.beginApply).drive
  | .online | .leaving | .applying =>
    (s.setCommandError.queueReport (.applyResult .wrongState)).drive

/-- R163: JOIN. -/
def State.actJoin (s : State) : State :=
  if s.table.station = .configured then s.joinLine.settle s false false else s.refuseMessage

/-- R164: LEAVE; R165 makes its test at the LEAVE itself. -/
def State.actLeave (s : State) : State :=
  if s.table.station = .online then s.leaveLine.settle s false true else s.refuseMessage

/-- R45: READ_TRAY. -/
def State.actReadTray (s : State) (tray : BitVec 16) : State :=
  if tray.toNat < s.cfgT then
    (s.queueReport (.tray tray.toNat ((s.tray? tray.toNat).getD TrayRec.fresh))).drive
  else s.refuseMessage

/-- R37: a DEFECTIVE record becomes LEARNING with seen NONE. -/
def State.clearRecord (s : State) (k : Nat) : State :=
  match s.tray? k with
  | some r => if r.cond = .defective then s.recond k .learning .none none else s
  | none => s

/-- R37: CLEAR_DEFECT. -/
def State.actClearDefect (s : State) (tray : BitVec 16) : State :=
  if tray.toNat < s.cfgT then if s.mapInUse then s.clearRecord tray.toNat else s
  else s.refuseMessage

/-- R150: IDENTIFY. -/
def State.actIdentify (s : State) : State := (s.queueReport .id).drive

/-- R150: CLEAR_FLAGS. -/
def State.actClearFlags (s : State) : State :=
  ((s.modPort fun p => { p with commandError := false }).modRep fun p =>
    { p with lost := false }).drive

/-- R151: RESET. The rest of a select period that is open is taken as IGNORING. -/
def State.actReset (s : State) : State :=
  s.resetBlocks.modPort fun p =>
    { p with select := if s.port.select = .idle then .idle else .ignoring }

/-- What a message does when it is acted on. -/
def State.act (s : State) : Message → State
  | .scan lane id chute flags => s.actScan lane id chute flags
  | .start lane => s.actStart lane
  | .stop lane => s.actStop lane
  | .pause lane => s.actPause lane
  | .resume lane => s.actResume lane
  | .setPointer index => s.actSetPointer index
  | .loadWord value => s.actLoadWord value
  | .loadWordNext value => s.actLoadWordNext value
  | .apply => s.actApply
  | .join => s.actJoin
  | .leave => s.actLeave
  | .readTray tray => s.actReadTray tray
  | .clearDefect tray => s.actClearDefect tray
  | .identify => s.actIdentify
  | .clearFlags => s.actClearFlags
  | .reset => s.actReset

/-- R149: a message is taken: while APPLYING all but RESET are discarded with COMMAND_ERROR. -/
def State.takeMessage (s : State) (m : Message) : State :=
  if s.busy && m != .reset then s.refuseMessage else s.act m

/-! ### Messages as commands

A message command is the message taken at that moment; it did not come through the inbound FIFO of
the model, which it leaves as it is (log 34). -/

/-- SCAN (R108, R109, R110). -/
def execScan (lane : Byte) (id : ScanId) (chute flags : Byte) (s : State) :
    Host.Outcome State Fault Refusal :=
  s.unlessHeld fun s => s.takeMessage (.scan lane id chute flags)

/-- START (R105). -/
def execStart (lane : Byte) (s : State) : Host.Outcome State Fault Refusal :=
  s.unlessHeld fun s => s.takeMessage (.start lane)

/-- STOP (R105). -/
def execStop (lane : Byte) (s : State) : Host.Outcome State Fault Refusal :=
  s.unlessHeld fun s => s.takeMessage (.stop lane)

/-- PAUSE (R105). -/
def execPause (lane : Byte) (s : State) : Host.Outcome State Fault Refusal :=
  s.unlessHeld fun s => s.takeMessage (.pause lane)

/-- RESUME (R102, R105). -/
def execResume (lane : Byte) (s : State) : Host.Outcome State Fault Refusal :=
  s.unlessHeld fun s => s.takeMessage (.resume lane)

/-- SET_POINTER (R158). -/
def execSetPointer (index : Byte) (s : State) : Host.Outcome State Fault Refusal :=
  s.unlessHeld fun s => s.takeMessage (.setPointer index)

/-- LOAD_WORD (R158). -/
def execLoadWord (value : Word) (s : State) : Host.Outcome State Fault Refusal :=
  s.unlessHeld fun s => s.takeMessage (.loadWord value)

/-- LOAD_WORD_NEXT (R158). -/
def execLoadWordNext (value : Word) (s : State) : Host.Outcome State Fault Refusal :=
  s.unlessHeld fun s => s.takeMessage (.loadWordNext value)

/-- APPLY (R159). -/
def execApply (s : State) : Host.Outcome State Fault Refusal :=
  s.unlessHeld fun s => s.takeMessage .apply

/-- JOIN (R163). -/
def execJoin (s : State) : Host.Outcome State Fault Refusal :=
  s.unlessHeld fun s => s.takeMessage .join

/-- LEAVE (R164). -/
def execLeave (s : State) : Host.Outcome State Fault Refusal :=
  s.unlessHeld fun s => s.takeMessage .leave

/-- READ_TRAY (R45). -/
def execReadTray (tray : BitVec 16) (s : State) : Host.Outcome State Fault Refusal :=
  s.unlessHeld fun s => s.takeMessage (.readTray tray)

/-- CLEAR_DEFECT (R37). -/
def execClearDefect (tray : BitVec 16) (s : State) : Host.Outcome State Fault Refusal :=
  s.unlessHeld fun s => s.takeMessage (.clearDefect tray)

/-- IDENTIFY (R150). -/
def execIdentify (s : State) : Host.Outcome State Fault Refusal :=
  s.unlessHeld fun s => s.takeMessage .identify

/-- CLEAR_FLAGS (R150). -/
def execClearFlags (s : State) : Host.Outcome State Fault Refusal :=
  s.unlessHeld fun s => s.takeMessage .clearFlags

/-- RESET (R151, R166). -/
def execReset (s : State) : Host.Outcome State Fault Refusal :=
  s.unlessHeld fun s => s.takeMessage .reset

/-! ### Select periods and bytes (R146, R147, R153, R154) -/

/-- The select state becomes `v`. -/
def State.setSelect (s : State) (v : Select) : State := s.modPort fun p => { p with select := v }

/-- The byte shifted out on SDO in a byte slot. -/
def State.shiftOut (s : State) (b : Byte) : State := s.modPort fun p => { p with sdo := b }

/-- SELECT_PERIOD_START (R146): a falling edge of SCS. An SCS that reads low already gives no edge
(log 24). -/
def execSelectPeriodStart (s : State) : Host.Outcome State Fault Refusal :=
  (s.modPins fun p => { p with scsLow := true }).unlessHeld fun s1 =>
    if s.pins.scsLow then s1 else s1.setSelect .awaiting

/-- SELECT_PERIOD_END (R146): the rising edge of SCS. -/
def execSelectPeriodEnd (s : State) : Host.Outcome State Fault Refusal :=
  (s.modPins fun p => { p with scsLow := false }).unlessHeld fun s1 => s1.setSelect .idle

/-- TRANSACTION_BYTE (R146): the first whole byte of a select period; SDO shifts 0x00. -/
def execTransactionByte (byte : Byte) (s : State) : Host.Outcome State Fault Refusal :=
  s.unlessHeld fun s =>
    if s.port.select = .awaiting then
      let s1 := s.shiftOut 0
      if byte = 0xA0 then s1.setSelect .put
      else if byte = 0xA1 then s1.setSelect .take
      else if byte = 0xA2 then s1.setSelect .status
      else ((s1.setSelect .ignoring).setCommandError).drive
    else s

/-- R147: a PUT byte enters the inbound FIFO, or is dropped with COMMAND_ERROR. -/
def State.putInbound (s : State) (byte : Byte) : State :=
  if s.port.inbound.length < Config.inboundCapacity then
    s.modPort fun p => { p with inbound := p.inbound ++ [byte] }
  else s.setCommandError

/-- R153: a byte slot of a TAKE: 0x00 while BUSY or from an empty FIFO, else the head, removed. -/
def State.takeReport (s : State) : State :=
  match s.rep.fifo with
  | [] => s.shiftOut 0
  | b :: rest =>
    if s.busy then s.shiftOut 0 else (s.shiftOut b).modRep fun p => { p with fifo := rest }

/-- PUT_BYTE (R147): a byte on SDI after the transaction byte. In STATUS and IGNORING it is a slot whose
SDI is ignored; in other select states it has no effect (log 23). -/
def execPutByte (byte : Byte) (s : State) : Host.Outcome State Fault Refusal :=
  s.unlessHeld fun s =>
    match s.port.select with
    | .put => ((s.shiftOut 0).putInbound byte).drive
    | .status => s.shiftOut s.statusByte
    | .ignoring => s.shiftOut 0
    | .idle | .awaiting | .take => s

/-- TAKE_BYTE (R153, R154): a byte slot on SDO after the transaction byte. In STATUS it sends the
status byte, in IGNORING 0x00; in other select states it has no effect (log 23). -/
def execTakeByte (s : State) : Host.Outcome State Fault Refusal :=
  s.unlessHeld fun s =>
    match s.port.select with
    | .take => s.takeReport.drive
    | .status => s.shiftOut s.statusByte
    | .ignoring => s.shiftOut 0
    | .idle | .awaiting | .put => s

/-! ### The parser (R148) -/

/-- Length of a message by its code (9.3); `none` for an unknown code. -/
def messageLength (code : Byte) : Option Nat :=
  if code = 0x10 then some 6
  else if code = 0x11 ∨ code = 0x12 ∨ code = 0x13 ∨ code = 0x14 ∨ code = 0x20 then some 2
  else if code = 0x21 ∨ code = 0x22 then some 5
  else if code = 0x30 ∨ code = 0x31 then some 3
  else if code = 0x23 ∨ code = 0x24 ∨ code = 0x25 ∨ code = 0x40 ∨ code = 0x41 ∨ code = 0x7E then
    some 1
  else none

/-- A message from its code and the bytes after it, most significant byte first (9.3). -/
def decodeMessage (code : Byte) (bytes : List Byte) : Option Message :=
  match code.toNat, bytes with
  | 0x10, [l, i1, i0, c, f] => some (.scan l (i1 ++ i0) c f)
  | 0x11, [l] => some (.start l)
  | 0x12, [l] => some (.stop l)
  | 0x13, [l] => some (.pause l)
  | 0x14, [l] => some (.resume l)
  | 0x20, [i] => some (.setPointer i)
  | 0x21, [a, b, c, d] => some (.loadWord (a ++ b ++ c ++ d))
  | 0x22, [a, b, c, d] => some (.loadWordNext (a ++ b ++ c ++ d))
  | 0x23, [] => some .apply
  | 0x24, [] => some .join
  | 0x25, [] => some .leave
  | 0x30, [k1, k0] => some (.readTray (k1 ++ k0))
  | 0x31, [k1, k0] => some (.clearDefect (k1 ++ k0))
  | 0x40, [] => some .identify
  | 0x41, [] => some .clearFlags
  | 0x7E, [] => some .reset
  | _, _ => none

/-- The message in assembly stands at `a`: taken if its length is reached, else kept (R148). -/
def State.assemble (s : State) (a : Assembly) : State :=
  if messageLength a.code = some (a.bytes.length + 1) then
    let s1 := s.modPort fun p => { p with assembly := none }
    match decodeMessage a.code a.bytes with
    | some m => s1.takeMessage m
    | none => s1
  else s.modPort fun p => { p with assembly := some a }

/-- One byte is read by the parser (R148). -/
def State.parse (s : State) (b : Byte) : State :=
  match s.port.assembly with
  | some a => s.assemble { a with bytes := a.bytes ++ [b] }
  | none =>
    match messageLength b with
    | some _ => s.assemble { code := b, bytes := [] }
    | none => s.setCommandError.drive

/-- PARSER_BYTE (R148, R149): the head of the inbound FIFO is taken; an empty FIFO has none. -/
def execParserByte (s : State) : Host.Outcome State Fault Refusal :=
  s.unlessHeld fun s =>
    match s.port.inbound with
    | [] => s
    | b :: rest => (s.modPort fun p => { p with inbound := rest }).parse b

/-! ### Station commands -/

/-- APPLY_COMPLETE (R162): the APPLY in progress completes with the result of its validation. -/
def execApplyComplete (s : State) : Host.Outcome State Fault Refusal :=
  s.unlessHeld fun s =>
    match s.table.applying with
    | some a => if s.busy then (s.completeApply a).settle s false false else s
    | none => s

/-- LEAVING_END (R165): the test, and the return to CONFIGURED when it holds. -/
def execLeavingEnd (s : State) : Host.Outcome State Fault Refusal :=
  s.unlessHeld fun s => s.testLeaving.settle s false false

/-- RESET_LINE (R151, R166): RSTN is asserted. -/
def execResetLine (s : State) : Host.Outcome State Fault Refusal :=
  .next (s.resetBlocks.modPins fun p => { p with rstLow := true })

/-- RESET_LINE_RELEASED (R151): RSTN is released. A select period then needs a falling edge of SCS. -/
def execResetLineReleased (s : State) : Host.Outcome State Fault Refusal :=
  .next (s.modPins fun p => { p with rstLow := false })

end Sys2Proof.Machine
end

