-- ==== Sys2Proof/Machine/Dispatch.lean ====
section
/-! DEFINITION. One arm for each command of spec/opcode_table.json, in the table's order. -/

namespace Sys2Proof.Machine

def exec (i : Instr) (s : State) : Host.Outcome State Fault Refusal :=
  match i with
  | .encoderCount a b c => Sys2Proof.Machine.execEncoderCount a b c s
  | .markerPulse a b => Sys2Proof.Machine.execMarkerPulse a b s
  | .markerMissing => Sys2Proof.Machine.execMarkerMissing s
  | .windowEnd => Sys2Proof.Machine.execWindowEnd s
  | .yieldChange a => Sys2Proof.Machine.execYieldChange a s
  | .receivedFrameRejected a b c => Sys2Proof.Machine.execReceivedFrameRejected a b c s
  | .claimHeard a b c d e => Sys2Proof.Machine.execClaimHeard a b c d e s
  | .releaseHeard a b c d => Sys2Proof.Machine.execReleaseHeard a b c d s
  | .loadedHeard a b c d e f => Sys2Proof.Machine.execLoadedHeard a b c d e f s
  | .occupiedHeard a b c d => Sys2Proof.Machine.execOccupiedHeard a b c d s
  | .defectHeard a b c d => Sys2Proof.Machine.execDefectHeard a b c d s
  | .frameAttemptStart => Sys2Proof.Machine.execFrameAttemptStart s
  | .attemptCollision a => Sys2Proof.Machine.execAttemptCollision a s
  | .backoffExpired => Sys2Proof.Machine.execBackoffExpired s
  | .lineHeld => Sys2Proof.Machine.execLineHeld s
  | .frameTxComplete => Sys2Proof.Machine.execFrameTxComplete s
  | .entryAbandoned => Sys2Proof.Machine.execEntryAbandoned s
  | .entryEyeBlocked a => Sys2Proof.Machine.execEntryEyeBlocked a s
  | .entryEyeClear a => Sys2Proof.Machine.execEntryEyeClear a s
  | .beltEncoderCount a => Sys2Proof.Machine.execBeltEncoderCount a s
  | .gapCountReached a => Sys2Proof.Machine.execGapCountReached a s
  | .measurementLimit a => Sys2Proof.Machine.execMeasurementLimit a s
  | .holdEyeBlocked a => Sys2Proof.Machine.execHoldEyeBlocked a s
  | .launchEyeBlocked a => Sys2Proof.Machine.execLaunchEyeBlocked a s
  | .transferTimeout a => Sys2Proof.Machine.execTransferTimeout a s
  | .mergeEyeBlocked a => Sys2Proof.Machine.execMergeEyeBlocked a s
  | .mergeEyeClear a => Sys2Proof.Machine.execMergeEyeClear a s
  | .mergeTimeout a => Sys2Proof.Machine.execMergeTimeout a s
  | .buttonPress a => Sys2Proof.Machine.execButtonPress a s
  | .buttonFilterElapsed a => Sys2Proof.Machine.execButtonFilterElapsed a s
  | .goPulse a => Sys2Proof.Machine.execGoPulse a s
  | .goPulseEnd a => Sys2Proof.Machine.execGoPulseEnd a s
  | .waitBlink a => Sys2Proof.Machine.execWaitBlink a s
  | .transactionByte a => Sys2Proof.Machine.execTransactionByte a s
  | .putByte a => Sys2Proof.Machine.execPutByte a s
  | .takeByte => Sys2Proof.Machine.execTakeByte s
  | .parserByte => Sys2Proof.Machine.execParserByte s
  | .scan a b c d => Sys2Proof.Machine.execScan a b c d s
  | .start a => Sys2Proof.Machine.execStart a s
  | .stop a => Sys2Proof.Machine.execStop a s
  | .pause a => Sys2Proof.Machine.execPause a s
  | .resume a => Sys2Proof.Machine.execResume a s
  | .setPointer a => Sys2Proof.Machine.execSetPointer a s
  | .loadWord a => Sys2Proof.Machine.execLoadWord a s
  | .loadWordNext a => Sys2Proof.Machine.execLoadWordNext a s
  | .apply => Sys2Proof.Machine.execApply s
  | .applyComplete => Sys2Proof.Machine.execApplyComplete s
  | .join => Sys2Proof.Machine.execJoin s
  | .leave => Sys2Proof.Machine.execLeave s
  | .leavingEnd => Sys2Proof.Machine.execLeavingEnd s
  | .readTray a => Sys2Proof.Machine.execReadTray a s
  | .clearDefect a => Sys2Proof.Machine.execClearDefect a s
  | .identify => Sys2Proof.Machine.execIdentify s
  | .clearFlags => Sys2Proof.Machine.execClearFlags s
  | .reset => Sys2Proof.Machine.execReset s
  | .resetLine => Sys2Proof.Machine.execResetLine s
  | .selectPeriodStart => Sys2Proof.Machine.execSelectPeriodStart s
  | .selectPeriodEnd => Sys2Proof.Machine.execSelectPeriodEnd s
  | .resetLineReleased => Sys2Proof.Machine.execResetLineReleased s
  | .receiverEntersHunting => Sys2Proof.Machine.execReceiverEntersHunting s

end Sys2Proof.Machine
end

