-- ==== Sys2Proof/Machine/Tick.lean ====
section
/-! DEFINITION. The 1 ms tick (00_scope.md, "Time base"): every millisecond timer moves by one, and a
timer that reaches its limit puts the command of that expiry into the queue (log 2). -/

namespace Sys2Proof.Machine

/-- A command in a list if its timer is due. -/
def dueIf (b : Bool) (i : Instr) : List Instr := if b then [i] else []

/-- The speed window completes 100 ms at this tick (R13). -/
def State.windowDue (s : State) : Bool := decide (Config.windowMs ≤ s.loop.windowTimer + 1)

/-- The APPLY in progress completes 2 ms at this tick (R159, R162). -/
def State.applyDue (s : State) : Bool :=
  match s.table.applying with
  | some a => s.busy && decide (Config.applyMs ≤ a.timer + 1)
  | none => false

/-- A lane's transfer timer reaches its timeout at this tick (R92). -/
def State.transferDue (s : State) (l : Lane) : Bool :=
  match (s.lane l).transfer with
  | some t => decide (s.cfgTransferMs l ≤ t + 1)
  | none => false

/-- A lane's merge timer reaches its timeout at this tick (R97). -/
def State.mergeDue (s : State) (l : Lane) : Bool :=
  match (s.lane l).launch with
  | some e => !e.aborted && decide (s.cfgMergeMs l ≤ e.timer + 1)
  | none => false

/-- A lane's button filter is running: the button reads released and 20 ms are not yet full (R101). -/
def State.filterRuns (s : State) (l : Lane) : Bool :=
  !s.pins.button.get l && decide ((s.lane l).buttonFilter < Config.filterMs)

/-- A lane's button has read released for 20 ms at this tick (R101). -/
def State.filterDue (s : State) (l : Lane) : Bool :=
  s.filterRuns l && decide (Config.filterMs ≤ (s.lane l).buttonFilter + 1)

/-- The pulse timer reaches the interval at this tick (R143). -/
def PaceLane.goDue (p : PaceLane) : Bool :=
  p.aspect == .go && decide (interval p.index ≤ p.pulse + 1)

/-- The pulse has lasted 250 ms at this tick (R143). -/
def PaceLane.goEndDue (p : PaceLane) : Bool :=
  p.aspect == .go && !p.goDue && p.pulse + 1 == Config.pulseMs

/-- The blink timer reaches 250 ms or 1000 ms at this tick (R144). -/
def PaceLane.blinkDue (p : PaceLane) : Bool :=
  p.aspect == .wait && (p.blink + 1 == Config.pulseMs || decide (Config.blinkMs ≤ p.blink + 1))

/-- The commands of a lane that fall due at this tick. -/
def State.laneDue (s : State) (l : Lane) : List Instr :=
  dueIf (s.transferDue l) (.transferTimeout l) ++ dueIf (s.mergeDue l) (.mergeTimeout l) ++
    dueIf (s.filterDue l) (.buttonFilterElapsed l) ++
    dueIf (s.pace.lanes.get l).goDue (.goPulse l) ++
    dueIf (s.pace.lanes.get l).goEndDue (.goPulseEnd l) ++
    dueIf (s.pace.lanes.get l).blinkDue (.waitBlink l)

/-- The commands that fall due at this tick. -/
def State.due (s : State) : List Instr :=
  dueIf s.windowDue .windowEnd ++ dueIf s.applyDue .applyComplete ++ s.laneDue .l0 ++ s.laneDue .l1

/-- The pulse timer after a tick in GO: at the interval where it falls due, held for its command where the
pulse ends, else one more (R143). -/
def PaceLane.pulseTick (p : PaceLane) : Nat :=
  if p.aspect ≠ .go ∨ p.goEndDue = true then p.pulse
  else if p.goDue then max p.pulse (interval p.index)
  else p.pulse + 1

/-- One lane's timers advance. A timer that is due stays and is moved by its command, but for the pulse timer,
which stands at its interval for GO_PULSE to find. -/
def State.tickLane (s : State) (l : Lane) : State :=
  (s.modLane l fun c =>
    { c with
      transfer := if s.transferDue l then c.transfer else c.transfer.map (· + 1)
      launch :=
        if s.mergeDue l then c.launch
        else c.launch.map fun e => if e.aborted then e else { e with timer := e.timer + 1 }
      buttonFilter :=
        if s.filterRuns l && !s.filterDue l then c.buttonFilter + 1 else c.buttonFilter }).modPaceLane l
    fun p =>
      { p with
        pulse := p.pulseTick
        blink := if p.aspect = .wait && !p.blinkDue then p.blink + 1 else p.blink }

/-- The loop's window timer and the APPLY timer advance. -/
def State.tickStation (s : State) : State :=
  (s.modLoop fun c =>
    { c with windowTimer := if s.windowDue then c.windowTimer else c.windowTimer + 1 }).modTable
    fun t =>
      { t with
        applying :=
          if s.applyDue then t.applying
          else t.applying.map fun a => { a with timer := a.timer + 1 } }

/-- One tick of 1 ms. Expiries that fall together are queued in a free order (log 4). -/
def State.tickMs (s : State) : State :=
  { ((s.afterOrder s.due).tickStation.tickLane .l0).tickLane .l1 with
    tick := s.tick + 1, pending := s.freeOrder s.due }

end Sys2Proof.Machine
end

