-- ==== Sys2Proof/Safety.lean ====
section
/-! DEFINITION. What a sound state of the IS220 is, in the terms the statements use, each part a test that
can be run. -/

namespace Sys2Proof.Machine

/-- A lane stands within the bounds the manual gives it: capacity + 3 records (R85), a measurement of at most
3000 (R88), a gap count below the minimum gap while its test is armed (R87; that gap is at most 3000,
10.2), a filter of at most 20 ms (R101), a pace index 0..15 and a hysteresis count 0..4 (8.1, R140). -/
def State.laneWithinBounds (s : State) (l : Lane) : Bool :=
  let c := s.lane l
  decide (c.parcels.length ≤ s.cfgCapacity l + 3) && decide (c.measure ≤ 3000) &&
    decide (c.gapCount ≤ 3000) && (c.gapTest.isNone || decide (c.gapCount < s.cfgMinGap l)) &&
    decide (c.buttonFilter ≤ 20) && decide ((s.pace.lanes.get l).index ≤ 15) &&
    decide ((s.pace.lanes.get l).hyst ≤ 4)

/-- The buffers and counts stand within the bounds the manual gives them: 64 inbound bytes (R147), 128 report
bytes (R152), eight queue entries (R53), nine received bytes (R49), attempts below 16 and the backoff of
the fifteenth at station 31 (R60), the idle run held at 24 (R47), the hold count to 1000 (R61), the doubt
window 0..L (2.12), sixteen records (R85), the pointer 0..47 (R158), vs 0..600 and the window count (1.1,
R13), 100 ms windows (R13), standstill 0..3 (R14), and each lane's own. A parcel's misses are not
among them. -/
def State.withinBounds (s : State) : Bool :=
  decide (s.port.inbound.length ≤ 64) && decide (s.rep.fifo.length ≤ 128) &&
    decide (s.txq.length ≤ 8) && decide (s.line.rxBuf.length ≤ 9) &&
    decide (s.line.attempt ≤ 15) && decide (s.line.backoff ≤ 984) &&
    decide (s.line.idleRun ≤ 24) && decide (s.line.holdCount ≤ 1000) &&
    decide (s.doubt ≤ s.loopLength) &&
    decide (s.lanes.l0.parcels.length + s.lanes.l1.parcels.length ≤ 16) &&
    decide (s.table.pointer ≤ 47) && decide (s.loop.vs ≤ 600) &&
    decide (-65535 ≤ s.loop.windowCount) && decide (s.loop.windowCount ≤ 65535) &&
    decide (s.loop.windowTimer ≤ 99) && decide (s.loop.standstill ≤ 3) &&
    s.laneWithinBounds .l0 && s.laneWithinBounds .l1

/-- The Loop Tracker's counts agree: UNLOCKED, all are 0 and no trigger or aim is held (R7); in lock S
lies on the loop, F = (S + b) mod L, b is at most L/2 (R1, R2) and K at most L plus the slip tolerance, and
COASTING is lock with one marker missing (1.1, R6). -/
def State.loopSound (s : State) : Bool :=
  match s.loop.lock with
  | .unlocked =>
    s.loop.S == 0 && s.loop.backlog == 0 && s.loop.frontier == 0 && s.loop.travel == 0 &&
      s.loop.missing == 0 && s.trig == .all none && s.aims == .all none
  | .locked | .coasting =>
    decide (s.loop.S < s.loopLength) && decide (s.loop.backlog ≤ s.loopLength / 2) &&
      s.loop.frontier == (s.loop.S + s.loop.backlog) % s.loopLength &&
      decide (s.loop.travel ≤ s.loopLength + s.cfgSlip) &&
      s.loop.missing == if s.loop.lock = .coasting then 1 else 0

/-- The committed copy has been validated (R160, R161). -/
def State.validated (s : State) : Bool := validate s.table.committed == .ok

/-- The station state agrees with what it governs (10.1, R159 to R166): outside UNCONFIGURED and
APPLYING the committed copy is validated, and it is otherwise validated or all zero; an APPLY is in
progress exactly in APPLYING; the map has one record a tray; the line is ENABLED exactly while the map
is in use, and DISABLED its queue is empty. -/
def State.stationSound (s : State) : Bool :=
  (s.validated || (s.table.committed == Vector.replicate 48 0 &&
      (s.table.station == .unconfigured || s.table.station == .applying))) &&
    (s.table.applying.isSome == s.busy) &&
    (match s.table.applying with
     | some a => !a.fromConfigured || s.validated
     | none => true) &&
    s.trays.length == s.cfgT && s.line.enabled == s.mapInUse && (s.line.enabled || s.txq.isEmpty)

/-- A lane with nothing on it and nothing running: STOPPED, no record, no launch, no transfer, no feed,
no gap test, no early scan (10.1, R106, R107). -/
def LaneCtl.cleared (c : LaneCtl) : Bool :=
  c.state == .stopped && c.parcels.isEmpty && c.launch.isNone && c.transfer.isNone && !c.feed &&
    c.gapTest.isNone && c.early.isNone

/-- Off the line, both lanes are cleared and there is no plan (10.1, R118). -/
def State.offlineIdle (s : State) : Bool :=
  s.mapInUse || (s.lanes.l0.cleared && s.lanes.l1.cleared && s.plans == .all none)

/-- Nothing of a lane waits to follow its conditions: no transfer could begin (R91), the feed is as R90
says, the aspect as R142 says. -/
def State.laneAtRest (s : State) (l : Lane) : Bool :=
  (s.transferReady? l).isNone && (s.lane l).feed == s.feedRuns l &&
    (s.pace.lanes.get l).aspect == s.aspectOf l

/-- A state between events: both lanes at rest, and the output lines as the state drives them (R155). -/
def State.atRest (s : State) : Bool :=
  s.laneAtRest .l0 && s.laneAtRest .l1 && s.outs == s.outputs

/-- The next forward count reaches a new position: the loop is in lock without backlog, the marker is not yet
overdue at that count (R1, R6), and the window count stays in its range (1.1). -/
def State.reachesNext (s : State) : Bool :=
  !s.pins.rstLow && s.locked && s.loop.backlog == 0 &&
    decide (s.loop.travel + 1 ≤ s.loopLength + s.cfgSlip) &&
    decide (-65535 ≤ s.loop.windowCount) && decide (s.loop.windowCount ≤ 65534)

/-- Nothing but tray events falls at the next position: no trigger and no aim is held there (R9, R11, R12). -/
def State.reachesQuietly (s : State) : Bool :=
  s.reachesNext && (s.triggersAt s.nextS).isEmpty &&
    allSlots.all fun x => s.aims.get x.1 x.2 != some s.nextS

/-- The message a message command stands for (9.3); `none` for the other commands. -/
def messageOf : Instr → Option Message
  | .scan lane id chute flags => some (.scan lane id chute flags)
  | .start lane => some (.start lane)
  | .stop lane => some (.stop lane)
  | .pause lane => some (.pause lane)
  | .resume lane => some (.resume lane)
  | .setPointer index => some (.setPointer index)
  | .loadWord value => some (.loadWord value)
  | .loadWordNext value => some (.loadWordNext value)
  | .apply => some .apply
  | .join => some .join
  | .leave => some .leave
  | .readTray tray => some (.readTray tray)
  | .clearDefect tray => some (.clearDefect tray)
  | .identify => some .identify
  | .clearFlags => some .clearFlags
  | .reset => some .reset
  | .encoderCount .. | .markerPulse .. | .markerMissing | .windowEnd | .yieldChange _ => none
  | .receivedFrameRejected .. | .claimHeard .. | .releaseHeard .. | .loadedHeard .. => none
  | .occupiedHeard .. | .defectHeard .. | .frameAttemptStart | .attemptCollision _ => none
  | .backoffExpired | .lineHeld | .frameTxComplete | .entryAbandoned => none
  | .entryEyeBlocked _ | .entryEyeClear _ | .beltEncoderCount _ | .gapCountReached _ => none
  | .measurementLimit _ | .holdEyeBlocked _ | .launchEyeBlocked _ | .transferTimeout _ => none
  | .mergeEyeBlocked _ | .mergeEyeClear _ | .mergeTimeout _ | .buttonPress _ => none
  | .buttonFilterElapsed _ | .goPulse _ | .goPulseEnd _ | .waitBlink _ => none
  | .transactionByte _ | .putByte _ | .takeByte | .parserByte | .applyComplete => none
  | .leavingEnd | .resetLine | .selectPeriodStart | .selectPeriodEnd => none
  | .resetLineReleased | .receiverEntersHunting => none

/-- The frame a command hands over as heard (R48, R52); `none` for the other commands. -/
def heardFrame : Instr → Option FrameData
  | .claimHeard st x k sp lane =>
    some { kind := .claim lane, station := st, location := x, tray := k, span := sp }
  | .releaseHeard st x k sp =>
    some { kind := .release, station := st, location := x, tray := k, span := sp }
  | .loadedHeard st x k sp chute double =>
    some { kind := .loaded chute double, station := st, location := x, tray := k, span := sp }
  | .occupiedHeard st x k sp =>
    some { kind := .occupied, station := st, location := x, tray := k, span := sp }
  | .defectHeard st x k sp =>
    some { kind := .defect, station := st, location := x, tray := k, span := sp }
  | .encoderCount .. | .markerPulse .. | .markerMissing | .windowEnd | .yieldChange _ => none
  | .receivedFrameRejected .. | .frameAttemptStart | .attemptCollision _ | .backoffExpired => none
  | .lineHeld | .frameTxComplete | .entryAbandoned | .entryEyeBlocked _ | .entryEyeClear _ => none
  | .beltEncoderCount _ | .gapCountReached _ | .measurementLimit _ | .holdEyeBlocked _ => none
  | .launchEyeBlocked _ | .transferTimeout _ | .mergeEyeBlocked _ | .mergeEyeClear _ => none
  | .mergeTimeout _ | .buttonPress _ | .buttonFilterElapsed _ | .goPulse _ => none
  | .goPulseEnd _ | .waitBlink _ | .transactionByte _ | .putByte _ | .takeByte => none
  | .parserByte | .scan .. | .start _ | .stop _ | .pause _ | .resume _ | .setPointer _ => none
  | .loadWord _ | .loadWordNext _ | .apply | .applyComplete | .join | .leave | .leavingEnd => none
  | .readTray _ | .clearDefect _ | .identify | .clearFlags | .reset | .resetLine => none
  | .selectPeriodStart | .selectPeriodEnd | .resetLineReleased | .receiverEntersHunting => none

/-- The line after a heard frame's end: HUNTING with an empty buffer, the idle run counting the frame's last
high bits and the ten by which its end is found (R47, R49; log 17). -/
def State.lineAfter (s : State) (f : FrameData) : LineIf :=
  { s.line with rx := .hunting, rxBuf := [], rxFault := false, idleRun := endRun (frameBytes f) }

/-- Several steps in a row. -/
def steps : Nat → State → Host.Outcome State Fault Refusal
  | 0, s => .next s
  | n + 1, s =>
    match step s with
    | .next t => steps n t
    | .fault r => .fault r
    | .refused r => .refused r

end Sys2Proof.Machine
end

