-- ==== Sys2Proof/Certificates/Slice0/Obligations.lean ====
section
/-! DEFINITION. The statements for the provers. Each says in its docstring which rules of spec/ it is about
and, where it leans on a choice of the model, which log entry says so. -/

open Sys2Proof Sys2Proof.Machine

/-! ## The queue of commands, and reset -/

/-- The command at the front of the queue is taken: a step is its effect on the state with the rest of the
queue (log 30 says where commands come from). -/
def Obligations.StepRunsFrontCommand : Prop :=
  ∀ (c : Instr) (rest : List Instr) (s : State),
    s.pending = c :: rest → step s = exec c { s with pending := rest }

/-- RESET and RESET_LINE return every block to its reset state and leave only the input levels and the
model's own fields; the status byte then reads 0x01 and every output line is off. While RSTN is asserted no
other command changes anything but levels of input lines, and its release changes that line alone (R16,
R21, R66, R107, R118, R145, R151, R157, R166). The model's choices are in it: the levels (logs 10 and 25),
the lane reason COMMAND (log 14), the idle run 0 (log 11), the tick kept (log 15) and the free counter
kept (log 4). -/
def Obligations.ResetRestoresEveryBlock : Prop :=
  (∀ s : State, s.pins.rstLow = false →
    ∃ t, exec .reset s = .next t ∧ t.statusByte = 0x01 ∧ t.outs = Outs.reset ∧
      t = { State.reset with
        port := { LocalPort.reset with
          select := if s.port.select = .idle then .idle else .ignoring }
        pins := s.pins, tick := s.tick, freeCount := s.freeCount, pending := s.pending }) ∧
  (∀ s : State, ∃ t, exec .resetLine s = .next t ∧ t.statusByte = 0x01 ∧ t.outs = Outs.reset ∧
    t = { State.reset with
      pins := { s.pins with rstLow := true }
      tick := s.tick, freeCount := s.freeCount, pending := s.pending }) ∧
  (∀ (c : Instr) (s : State), s.pins.rstLow = true → c ≠ .resetLine → c ≠ .resetLineReleased →
    ∃ p, exec c s = .next { s with pins := p } ∧ p.rstLow = true) ∧
  ∀ s : State, exec .resetLineReleased s = .next { s with pins := { s.pins with rstLow := false } }

/-- The reset state is sound in every sense the invariants below name. -/
def Obligations.ResetStateMeetsEveryInvariant : Prop :=
  State.reset.withinBounds = true ∧ State.reset.loopSound = true ∧
    State.reset.stationSound = true ∧ State.reset.offlineIdle = true ∧ State.reset.atRest = true

/-- On an empty queue 1 ms passes, unless RSTN is asserted (log 2, DESIGN CHOICE): the tick counts, each
running timer moves by one, a timer that falls due keeps its place for the command of its expiry, which
joins the queue once, the pulse timer stands at its interval at least, and nothing else moves (00_scope.md
"Time base", R13, R92, R97, R101, R143, R144, R159; the order of commands due together is free, log 4; that
the tick counts the button's filter is log 16's). -/
def Obligations.TickMovesTimersAndQueuesExpiries : Prop :=
  ∀ s : State, s.pending = [] →
    (s.pins.rstLow = true → step s = .next s) ∧
    (s.pins.rstLow = false →
      let windowDue := 100 ≤ s.loop.windowTimer + 1
      let applyDue := s.table.station = .applying ∧
        ∃ a, s.table.applying = some a ∧ 2 ≤ a.timer + 1
      let transferDue := fun l => ∃ n, (s.lane l).transfer = some n ∧ s.cfgTransferMs l ≤ n + 1
      let mergeDue := fun l => ∃ e, (s.lane l).launch = some e ∧ e.aborted = false ∧
        s.cfgMergeMs l ≤ e.timer + 1
      let filterDue := fun l => s.pins.button.get l = false ∧ (s.lane l).buttonFilter = 19
      let pulse := fun l => (s.pace.lanes.get l).pulse
      let goDue := fun l => (s.pace.lanes.get l).aspect = .go ∧
        interval (s.pace.lanes.get l).index ≤ pulse l + 1
      let goEndDue := fun l => (s.pace.lanes.get l).aspect = .go ∧
        pulse l + 1 < interval (s.pace.lanes.get l).index ∧ pulse l + 1 = 250
      let blinkDue := fun l => (s.pace.lanes.get l).aspect = .wait ∧
        ((s.pace.lanes.get l).blink + 1 = 250 ∨ 1000 ≤ (s.pace.lanes.get l).blink + 1)
      ∃ t, step s = .next t ∧
        t = { s with
          loop := { s.loop with windowTimer := t.loop.windowTimer }
          table := { s.table with applying := t.table.applying }
          lanes := t.lanes, pace := t.pace, tick := s.tick + 1, freeCount := t.freeCount
          pending := t.pending } ∧
        t.pending.Nodup ∧
        (∀ c, c ∈ t.pending ↔ (c = .windowEnd ∧ windowDue) ∨ (c = .applyComplete ∧ applyDue) ∨
          ∃ l, (c = .transferTimeout l ∧ transferDue l) ∨ (c = .mergeTimeout l ∧ mergeDue l) ∨
            (c = .buttonFilterElapsed l ∧ filterDue l) ∨ (c = .goPulse l ∧ goDue l) ∨
            (c = .goPulseEnd l ∧ goEndDue l) ∨ (c = .waitBlink l ∧ blinkDue l)) ∧
        t.loop.windowTimer = s.loop.windowTimer + (if s.loop.windowTimer < 99 then 1 else 0) ∧
        (applyDue → t.table.applying = s.table.applying) ∧
        (∀ a, ¬ applyDue → s.table.applying = some a →
          t.table.applying = some { a with timer := a.timer + 1 }) ∧
        (s.table.applying = none → t.table.applying = none) ∧
        t.pace.target = s.pace.target ∧
        ∀ l, t.lane l = { s.lane l with
            transfer := (t.lane l).transfer, launch := (t.lane l).launch
            buttonFilter := (t.lane l).buttonFilter } ∧
          t.pace.lanes.get l = { s.pace.lanes.get l with
            pulse := (t.pace.lanes.get l).pulse, blink := (t.pace.lanes.get l).blink } ∧
          (transferDue l → (t.lane l).transfer = (s.lane l).transfer) ∧
          (¬ transferDue l → (t.lane l).transfer = (s.lane l).transfer.map (· + 1)) ∧
          (∀ e, (s.lane l).launch = some e → e.aborted = false → ¬ mergeDue l →
            (t.lane l).launch = some { e with timer := e.timer + 1 }) ∧
          ((mergeDue l ∨ (s.lane l).launchRuns = false) →
            (t.lane l).launch = (s.lane l).launch) ∧
          (t.lane l).buttonFilter = (s.lane l).buttonFilter +
            (if s.pins.button.get l = false ∧ (s.lane l).buttonFilter < 19 then 1 else 0) ∧
          (goDue l → (t.pace.lanes.get l).pulse =
            max (pulse l) (interval (s.pace.lanes.get l).index)) ∧
          ((s.pace.lanes.get l).aspect = .go → ¬ goDue l → ¬ goEndDue l →
            (t.pace.lanes.get l).pulse = pulse l + 1) ∧
          (((s.pace.lanes.get l).aspect ≠ .go ∨ goEndDue l) →
            (t.pace.lanes.get l).pulse = pulse l) ∧
          ((s.pace.lanes.get l).aspect = .wait → ¬ blinkDue l →
            (t.pace.lanes.get l).blink = (s.pace.lanes.get l).blink + 1) ∧
          (((s.pace.lanes.get l).aspect ≠ .wait ∨ blinkDue l) →
            (t.pace.lanes.get l).blink = (s.pace.lanes.get l).blink))

/-! ## Invariants kept by every step -/

/-- Every step keeps these within the manual's bounds: the FIFOs, the queue and the received bytes; attempts,
backoff, idle run, hold count and doubt window; the pool, each lane's list, its measurement, gap and
filter counts; the word pointer; vs, window count, window timer and standstill count; pace index and
hysteresis count. A parcel's misses are left out. Stated for a station state that is sound and lanes
cleared off the line (R1, R13, R14, R47, R49, R53, R60, R61, R85, R87, R88, R101, R140, R147, R152, R158). -/
def Obligations.StepKeepsBuffersWithinBounds : Prop :=
  ∀ s t : State, s.stationSound = true → s.offlineIdle = true → s.withinBounds = true →
    step s = .next t → t.withinBounds = true

/-- Every step keeps the Loop Tracker's counts in agreement, K at most L plus the slip tolerance (1.1, R1 to
R8), on a state whose station state is sound. -/
def Obligations.StepKeepsLoopCountsInAgreement : Prop :=
  ∀ s t : State, s.stationSound = true → s.loopSound = true → step s = .next t → t.loopSound = true

/-- Every step keeps the station state in agreement with the committed copy, the APPLY in progress, the
map and the line (10.1, R64, R65, R159 to R166). -/
def Obligations.StepKeepsStationStateSound : Prop :=
  ∀ s t : State, s.stationSound = true → step s = .next t → t.stationSound = true

/-- Every step leaves both lanes cleared and no plan live whenever the station is off the line (10.1,
R105, R106, R118, R165). -/
def Obligations.StepKeepsOfflineLanesCleared : Prop :=
  ∀ s t : State, s.offlineIdle = true → step s = .next t → t.offlineIdle = true

/-- No step leaves anything of a lane waiting: no transfer that could begin (R91), no feed against its
conditions (R90), no aspect but that of R142, no output line but as the state drives it (R155). -/
def Obligations.StepLeavesLanesAtRest : Prop :=
  ∀ s t : State, s.atRest = true → step s = .next t → t.atRest = true

/-! ## Encodings -/

/-- A composed frame passes the receiver's checks of form and check and reads back as what was composed,
at the length its kind has (3.3, R48, R50). -/
def Obligations.ComposedFrameReadsBack : Prop :=
  ∀ f : FrameData, f.station < 32 → f.location < 2 ^ 21 → f.tray < 1024 →
    (frameBytes f).length = frameLength f.kind.code ∧ parseFrame (frameBytes f) false = .ok f

/-- The parser takes one byte: a code that completes no message is kept as a message begun, an unknown code is
discarded with COMMAND_ERROR, a byte of a message under way that does not complete it is added, and an
empty FIFO gives nothing. Given a message's bytes at the head of the inbound FIFO, it takes exactly that
message at its last byte and leaves the bytes behind it (R148, 9.3). -/
def Obligations.ParserAssemblesMessages : Prop :=
  (∀ s : State, s.pins.rstLow = false →
    (s.port.inbound = [] → exec .parserByte s = .next s) ∧
    (∀ b rest, s.port.inbound = b :: rest → s.port.assembly = none →
      (messageLength b = none → ∃ o, exec .parserByte s = .next { s with
        port := { s.port with inbound := rest, commandError := true }, outs := o }) ∧
      (∀ n, messageLength b = some n → 1 < n → exec .parserByte s = .next { s with
        port := { s.port with inbound := rest, assembly := some { code := b, bytes := [] } } })) ∧
    (∀ a b rest n, s.port.inbound = b :: rest → s.port.assembly = some a →
      messageLength a.code = some n → a.bytes.length + 2 < n →
      exec .parserByte s = .next { s with
        port := { s.port with
          inbound := rest, assembly := some { a with bytes := a.bytes ++ [b] } } })) ∧
  ∀ (m : Message) (s : State) (rest : List Byte) (q : List Instr),
    s.pins.rstLow = false → s.port.assembly = none → s.port.inbound = m.bytes ++ rest →
    s.pending = List.replicate m.bytes.length .parserByte ++ q →
    steps m.bytes.length s =
      .next ({ s with pending := q, port := { s.port with inbound := rest } }.takeMessage m)

/-! ## Loop Tracker -/

/-- Counts that reach no new position, or a position at which nothing falls, move the counts alone, with the
levels of CHK and LVL (log 10): in UNLOCKED the window count; backward S, the backlog and K; forward in
the backlog S, the backlog and K; forward to a quiet position S, the frontier, K and the doubt window. A
forward count without backlog moves these on in the same way whatever falls at the position (R1, R2, R9,
R41). -/
def Obligations.EncoderCountMovesCounts : Prop :=
  ∀ (s : State) (chk lvl : Bool), s.pins.rstLow = false →
    let p := { s.pins with chk := chk, lvl := lvl }
    let len := s.loopLength
    (∀ forward, s.atRest = true → s.loop.lock = .unlocked →
      -65535 ≤ s.loop.windowCount + (if forward then 1 else -1) →
      s.loop.windowCount + (if forward then 1 else -1) ≤ 65535 →
      exec (.encoderCount forward chk lvl) s = .next { s with
        pins := p
        loop := { s.loop with
          windowCount := s.loop.windowCount + (if forward then 1 else -1) } }) ∧
    (s.atRest = true → s.loop.lock ≠ .unlocked → s.loop.backlog + 1 ≤ len / 2 →
      -65534 ≤ s.loop.windowCount → s.loop.windowCount ≤ 65535 →
      exec (.encoderCount false chk lvl) s = .next { s with
        pins := p
        loop := { s.loop with
          S := (s.loop.S + (len - 1)) % len
          backlog := s.loop.backlog + 1
          travel := s.loop.travel - 1
          windowCount := s.loop.windowCount - 1 } }) ∧
    (s.atRest = true → s.loop.lock ≠ .unlocked → 0 < s.loop.backlog →
      s.loop.travel + 1 ≤ len + s.cfgSlip → -65535 ≤ s.loop.windowCount →
      s.loop.windowCount ≤ 65534 →
      exec (.encoderCount true chk lvl) s = .next { s with
        pins := p
        loop := { s.loop with
          S := (s.loop.S + 1) % len
          backlog := s.loop.backlog - 1
          travel := s.loop.travel + 1
          windowCount := s.loop.windowCount + 1 } }) ∧
    (s.atRest = true → s.reachesQuietly = true → s.trayEventsAt s.nextS = [] →
      exec (.encoderCount true chk lvl) s = .next { s with
        pins := p
        doubt := s.doubt - 1
        loop := { s.loop with
          S := (s.loop.S + 1) % len
          frontier := (s.loop.S + 1) % len
          travel := s.loop.travel + 1
          windowCount := s.loop.windowCount + 1 } }) ∧
    (s.reachesNext = true →
      ∃ t, exec (.encoderCount true chk lvl) s = .next t ∧
        t.loop = { s.loop with
          S := (s.loop.S + 1) % len
          frontier := (s.loop.S + 1) % len
          travel := s.loop.travel + 1
          windowCount := s.loop.windowCount + 1 } ∧
        t.pins = p ∧ t.port = s.port ∧ t.table.committed = s.table.committed ∧
        t.table.working = s.table.working ∧
        (s.table.station ≠ .leaving → t.doubt = s.doubt - 1 ∧ t.table = s.table))

/-- Lock is lost at a backward count beyond L/2, at a marker in error by more than the slip tolerance, at
MARKER_MISSING with one marker missing already, and at a forward count that takes K beyond L plus the slip
tolerance with one missing already (stated for a count at which nothing else falls): UNLOCKED with every
count 0, no trigger and no aim held, LOST reported ahead of what else the event reports. On a station that
is ONLINE the plans that live on are LAUNCHED and their aims count as reached, and every record becomes
LEARNING but DEFECTIVE ones, which stay, and the OWN records of LAUNCHED plans (R2, R4, R6, R7, R35, R127,
R167). -/
def Obligations.LockLossClearsTheLoop : Prop :=
  ∀ (s : State) (c : Instr), s.pins.rstLow = false → s.loop.lock ≠ .unlocked →
    ((∃ chk lvl, c = .encoderCount false chk lvl ∧ s.loopLength / 2 < s.loop.backlog + 1) ∨
      (∃ chk lvl, c = .markerPulse chk lvl ∧
        (2 * s.loop.S ≤ s.loopLength → s.cfgSlip < s.loop.S) ∧
        (s.loopLength < 2 * s.loop.S → s.cfgSlip < s.loopLength - s.loop.S)) ∨
      (c = .markerMissing ∧ s.loop.missing ≠ 0) ∨
      (∃ chk lvl, c = .encoderCount true chk lvl ∧ s.loop.missing ≠ 0 ∧
        s.loopLength + s.cfgSlip < s.loop.travel + 1 ∧
        (s.loop.backlog = 0 → s.triggersAt s.nextS = [] ∧ s.trayEventsAt s.nextS = []))) →
    ∃ t, exec c s = .next t ∧ t.loop.lock = .unlocked ∧ t.loop.S = 0 ∧ t.loop.backlog = 0 ∧
      t.loop.travel = 0 ∧ t.loop.missing = 0 ∧ t.loop.vs = s.loop.vs ∧
      t.trig = .all none ∧ t.aims = .all none ∧
      (s.rep.fifo.length + 3 ≤ 128 → s.rep.fifo ++ [0x84, 0, 2] <+: t.rep.fifo) ∧
      (s.table.station = .online → ∀ l sl p, t.plan l sl = some p →
        p.state = .launched ∧ p.aimReached = true) ∧
      (s.table.station = .online → ∀ k r, s.tray? k = some r → ∃ q, t.tray? k = some q ∧
        (r.cond ≠ .defective → ¬ (r.cond = .own ∧ s.planStateOf? r = some .launched) →
          q = { cond := .learning, seen := r.seen, holder := none, partner := none,
                plan := none }) ∧
        (r.cond = .defective → q.cond = .defective ∧ q.seen = r.seen))

/-- A marker in UNLOCKED acquires lock at position 0 under a committed configuration, and reports it, and is
discarded without one; in lock, a marker within the slip tolerance corrects S to 0, backward into the
backlog or forward to the frontier, and confirms lock, which it reports from COASTING alone (R3, R4, R5;
the bound on the backlog of a backward correction is log 27's, that the command sets the levels of CHK and
LVL log 10's). The reports are stated where no other event of the marker's can come before them. -/
def Obligations.MarkerAcquiresOrConfirmsLock : Prop :=
  ∀ (s : State) (chk lvl : Bool), s.pins.rstLow = false →
    let confirmed := if s.loop.lock = .coasting then s.queueReport (.loop .locked .locked) else s
    (s.loop.lock = .unlocked → s.cfgT ≠ 0 →
      ∃ t, exec (.markerPulse chk lvl) s = .next t ∧
        t.loop = { s.loop with
          lock := .locked, S := 0, backlog := 0, frontier := 0, travel := 0, missing := 0 } ∧
        t.pins = { s.pins with chk := chk, lvl := lvl } ∧ t.port = s.port ∧
        t.table.committed = s.table.committed ∧
        (s.trig = .all none → s.trayEventsAt 0 = [.arrival 0] → s.rep.fifo.length + 3 ≤ 128 →
          s.rep.fifo ++ [0x84, 1, 0] <+: t.rep.fifo)) ∧
    (s.loop.lock = .unlocked → s.cfgT = 0 → s.atRest = true →
      exec (.markerPulse chk lvl) s = .next { s with pins := { s.pins with chk := chk, lvl := lvl } }) ∧
    (s.loop.lock ≠ .unlocked → s.loop.S < s.loopLength → 2 * s.loop.S ≤ s.loopLength →
      s.loop.S ≤ s.cfgSlip → s.loop.backlog + s.loop.S ≤ s.loopLength / 2 →
      ∃ t, exec (.markerPulse chk lvl) s = .next t ∧
        t.loop = { s.loop with
          lock := .locked, S := 0, backlog := s.loop.backlog + s.loop.S, travel := 0
          missing := 0 } ∧
        t.rep = confirmed.rep ∧ t.trays = s.trays ∧ t.plans = s.plans ∧ t.txq = s.txq) ∧
    (s.loop.lock ≠ .unlocked → s.loop.S < s.loopLength → s.loopLength < 2 * s.loop.S →
      s.loopLength - s.loop.S ≤ s.cfgSlip →
      ∃ t, exec (.markerPulse chk lvl) s = .next t ∧
        t.loop = { s.loop with
          lock := .locked, S := 0, backlog := s.loop.backlog - (s.loopLength - s.loop.S)
          frontier := if s.loopLength - s.loop.S ≤ s.loop.backlog then s.loop.frontier else 0
          travel := 0, missing := 0 } ∧
        (s.loopLength - s.loop.S ≤ s.loop.backlog →
          t.rep = confirmed.rep ∧ t.trays = s.trays ∧ t.plans = s.plans ∧ t.txq = s.txq))

/-- A first missing marker puts the loop in COASTING, reduces K by L and reports it. At MARKER_MISSING, which
says that K has passed its limit (log 1), positions, plans, records and frames stay; a forward count that
takes K beyond L plus the slip tolerance does the same beside its own effect, stated for a count that pays
off the backlog or reaches a position at which nothing falls (R1, R6). -/
def Obligations.MissingMarkerCoasts : Prop :=
  ∀ s : State, s.pins.rstLow = false → s.loop.lock ≠ .unlocked → s.loop.missing = 0 →
    (∃ t, exec .markerMissing s = .next t ∧
      t.loop = { s.loop with lock := .coasting, missing := 1, travel := s.cfgSlip + 1 } ∧
      t.rep = (s.queueReport (.loop .coasting .coasting)).rep ∧ t.trays = s.trays ∧
      t.doubt = s.doubt ∧ t.plans = s.plans ∧ t.trig = s.trig ∧ t.aims = s.aims ∧
      t.txq = s.txq ∧ t.line = s.line ∧ t.table = s.table ∧ t.port = s.port) ∧
    ∀ chk lvl, s.loopLength + s.cfgSlip < s.loop.travel + 1 → -65535 ≤ s.loop.windowCount →
      s.loop.windowCount ≤ 65534 →
      (s.loop.backlog = 0 → s.triggersAt s.nextS = [] ∧ s.trayEventsAt s.nextS = [] ∧
        ∀ l sl, s.aims.get l sl ≠ some s.nextS) →
      ∃ t, exec (.encoderCount true chk lvl) s = .next t ∧
        t.loop = { s.loop with
          S := (s.loop.S + 1) % s.loopLength
          backlog := s.loop.backlog - 1
          frontier := if s.loop.backlog = 0 then (s.loop.S + 1) % s.loopLength
            else s.loop.frontier
          windowCount := s.loop.windowCount + 1
          lock := .coasting, missing := 1, travel := s.loop.travel + 1 - s.loopLength } ∧
        t.rep = (s.queueReport (.loop .coasting .coasting)).rep ∧ t.trays = s.trays ∧
        t.doubt = (if s.loop.backlog = 0 then s.doubt - 1 else s.doubt) ∧ t.plans = s.plans ∧
        t.trig = s.trig ∧ t.aims = s.aims ∧ t.txq = s.txq ∧ t.table = s.table

/-- A window end forms vs, the overspeed flag, the standstill count and the motion state, starts the next
window, leaves the positions, and on a standing loop sets both paces back. It reports OVERSPEED where the
flag becomes set, then STOPPED or MOVING where the motion state changes, ahead of what the Planner
reports (R13, R14, R15, R141). -/
def Obligations.WindowEndFormsSpeedAndMotion : Prop :=
  ∀ s : State, s.pins.rstLow = false →
    let v := min s.loop.windowCount.toNat 600
    let n := min (s.loop.standstill + 1) 3
    let r1 := if 600 < s.loop.windowCount ∧ s.loop.overspeed = false then
      s.queueReport (.loop s.loop.lock .overspeed) else s
    let r2 := if v = 0 ∧ n = 3 ∧ s.loop.motion = .moving then
        r1.queueReport (.loop s.loop.lock .stopped)
      else if v ≠ 0 ∧ s.loop.motion = .stopped then r1.queueReport (.loop s.loop.lock .moving)
      else r1
    ∃ t, exec .windowEnd s = .next t ∧
      t.loop = { s.loop with
        vs := v, overspeed := decide (600 < s.loop.windowCount), windowCount := 0, windowTimer := 0
        standstill := if v = 0 then n else 0
        motion := if v ≠ 0 then .moving else if n = 3 then .stopped else s.loop.motion } ∧
      t.pins = s.pins ∧ t.port = s.port ∧ t.table.committed = s.table.committed ∧
      r2.rep.fifo <+: t.rep.fifo ∧
      (t.loop.motion = .stopped → ∀ l, (t.pace.lanes.get l).index = 15 ∧
        (t.pace.lanes.get l).valid = false ∧ (t.pace.lanes.get l).hyst = 0)

/-- YIELD changes its level and nothing else, and from then on a tray's sector is allowed by its allow bit
and, while YIELD is asserted, by a clear yield bit (R38, R39). -/
def Obligations.YieldLevelGovernsSectors : Prop :=
  ∀ (s : State) (asserted : Bool),
    let t := { s with pins := { s.pins with yieldIn := asserted } }
    exec (.yieldChange asserted) s = .next t ∧
      ∀ k, t.sectorAllowed k = true ↔
        s.cfgAllow / 2 ^ (k / ((s.cfgT + 15) / 16)) % 2 = 1 ∧
          (asserted = true → s.cfgYield / 2 ^ (k / ((s.cfgT + 15) / 16)) % 2 = 0)

/-! ## Tray Map, at a newly reached position -/

/-- A check event of a level and occupied tray makes an OPEN or HELD_BEHIND record STRAY and queues OCCUPIED;
of a tray not level it makes a record that is neither OWN nor DEFECTIVE DEFECTIVE, queues DEFECT and
reports it; of a level and free tray it notes FREE on an OPEN record, makes a LOADED_AHEAD record OPEN and
reports EMPTY_LOADED, and makes a STRAY record OPEN without a report. It notes OCCUPIED alone on a HELD_AHEAD,
LOADED_AHEAD or STRAY record found occupied, FREE alone on a held one found free, the sample alone on a level
LEARNING or PASSED record, and on a DEFECTIVE one whether level or not (R9, R23, R24, R27, R28). -/
def Obligations.CheckEventReconcilesRecord : Prop :=
  ∀ (s : State) (k : Nat) (r : TrayRec), s.reachesQuietly = true →
    s.trayEventsAt s.nextS = [.check k] → s.table.station = .online → s.tray? k = some r →
    s.line.enabled = true → s.txq.length < 8 →
    ((r.cond = .opened ∨ r.cond = .heldBehind) →
      s.hasTwin (plainEntry .occupied k .one) = false →
      ∃ t, exec (.encoderCount true true true) s = .next t ∧
        t.tray? k = some { cond := .stray, seen := .occupied, holder := none, partner := none,
                           plan := none } ∧
        t.txq = s.txq ++ [plainEntry .occupied k .one] ∧ t.rep = s.rep ∧ t.plans = s.plans) ∧
    (∀ chk, r.cond ≠ .own → r.cond ≠ .defective →
      s.hasTwin (plainEntry .defect k .one) = false →
      ∃ t, exec (.encoderCount true chk false) s = .next t ∧
        t.tray? k = some { cond := .defective, seen := if chk then .occupied else .free,
                           holder := none, partner := none, plan := none } ∧
        t.txq = s.txq ++ [plainEntry .defect k .one] ∧
        t.rep = (s.queueReport (.defect k .own)).rep ∧ t.plans = s.plans) ∧
    (r.cond = .opened →
      ∃ t, exec (.encoderCount true false true) s = .next t ∧
        t.tray? k = some { r with seen := .free } ∧ t.txq = s.txq ∧ t.rep = s.rep ∧
        t.plans = s.plans) ∧
    ((r.cond = .loadedAhead ∨ r.cond = .stray) →
      ∃ t, exec (.encoderCount true false true) s = .next t ∧
        t.tray? k = some { cond := .opened, seen := .free, holder := none, partner := none,
                           plan := none } ∧
        t.rep = (if r.cond = .loadedAhead then s.queueReport (.mismatch k .emptyLoaded)
          else s).rep ∧
        t.txq = s.txq ∧ t.plans = s.plans) ∧
    ∀ chk lvl, ((chk = true ∧ lvl = true ∧
          (r.cond = .heldAhead ∨ r.cond = .loadedAhead ∨ r.cond = .stray)) ∨
        (chk = false ∧ lvl = true ∧ (r.cond = .heldAhead ∨ r.cond = .heldBehind)) ∨
        (lvl = true ∧ (r.cond = .learning ∨ r.cond = .passed)) ∨ r.cond = .defective) →
      ∃ t, exec (.encoderCount true chk lvl) s = .next t ∧
        t.trays = s.trays.set k { r with seen := if chk then .occupied else .free } ∧
        t.txq = s.txq ∧ t.rep = s.rep ∧ t.plans = s.plans

/-- The check event of a tray this station has claimed. Occupied: a plan not LAUNCHED is abandoned, its record
STRAY, OCCUPIED queued, then a CLAIMED plan's RELEASE, while a TENTATIVE plan's CLAIM leaves the queue; a
LAUNCHED plan not yet seen at the merge eye is aborted, its parcel stranded and the lane BLOCKED, with
OCCUPIED and RELEASE queued; one seen there is marked double and reported DOUBLE_LOAD. Not level: DEFECT,
then the RELEASE of a plan not TENTATIVE; the launch runs on and TILTED_TARGET is reported. Free: seen
alone. The plan's other record becomes OPEN; no miss is counted. Stated for a lane with no other plan, and
where the Planner does not plan anew in the event (R23, R25, R26, R27, R32, R33, R96, R99, R134; REJECTED
ahead of LANE is log 9's). -/
def Obligations.CheckEventOfOwnRecord : Prop :=
  ∀ (s : State) (k : Nat) (r : TrayRec) (ref : PlanRef) (sl : Slot) (p : Plan),
    s.reachesQuietly = true → s.trayEventsAt s.nextS = [.check k] → s.table.station = .online →
    s.mayPlan = false → s.line.enabled = true → s.tray? k = some r → r.cond = .own →
    r.plan = some ref → s.slotOf? ref.lane ref.tag = some sl → s.plan ref.lane sl = some p →
    s.plan ref.lane (otherSlot sl) = none → s.txq.length + 2 ≤ 8 →
    s.hasTwin (plainEntry .occupied k .one) = false →
    s.hasTwin (plainEntry .defect k .one) = false →
    s.hasTwin (plainEntry .release p.target p.span) = false →
    let c := s.lane ref.lane
    let ended := fun (t : State) =>
      t.plan ref.lane sl = none ∧ t.trig.get ref.lane sl = none ∧
        (t.lane ref.lane).parcels.map Parcel.misses = c.parcels.map Parcel.misses ∧
        ∀ j ∈ s.namedTrays p.target p.span, j ≠ k → ∀ q, s.tray? j = some q → q.cond = .own →
          q.plan = some ref → t.tray? j = some
            { cond := .opened, seen := q.seen, holder := none, partner := none, plan := none }
    let sent := fun (t : State) (own : TxEntry) =>
      (p.state ≠ .tentative → t.txq = s.txq ++ [own, plainEntry .release p.target p.span]) ∧
        (∀ older e younger, p.state = .tentative → s.txq = older ++ e :: younger →
          e.kind.isClaim = true → e.plan = some ref → e.phase = .waiting → e.ended = false →
          (∀ q ∈ older, q.plan ≠ some ref) → t.txq = older ++ younger ++ [own])
    let stray : TrayRec := { cond := .stray, seen := .occupied, holder := none, partner := none,
                             plan := none }
    (p.state ≠ .launched →
      ∃ t, exec (.encoderCount true true true) s = .next t ∧ ended t ∧
        sent t (plainEntry .occupied k .one) ∧ t.tray? k = some stray ∧ t.rep = s.rep) ∧
    (∀ e q, p.state = .launched → c.launch = some e → e.mergeSeen = false →
      c.at? .launching = some q → (c.state = .running ∨ c.state = .paused) →
      ∃ t, exec (.encoderCount true true true) s = .next t ∧ ended t ∧
        sent t (plainEntry .occupied k .one) ∧ t.tray? k = some stray ∧
        (t.lane ref.lane).launch = some { e with aborted := true } ∧
        (t.lane ref.lane).state = .blocked ∧ (t.lane ref.lane).reason = .stranded ∧
        (t.lane ref.lane).removal = true ∧
        t.rep = ((s.queueReport (.rejected ref.lane q.tag .stranded)).queueReport
          (.lane ref.lane .blocked .stranded)).rep) ∧
    (∀ e, p.state = .launched → c.launch = some e → e.mergeSeen = true →
      ∃ t, exec (.encoderCount true true true) s = .next t ∧
        t.tray? k = some { r with seen := .occupied } ∧
        t.plan ref.lane sl = some { p with double := true } ∧
        (t.lane ref.lane).launch = some { e with double := true } ∧ t.txq = s.txq ∧
        t.rep = (s.queueReport (.mismatch k .doubleLoad)).rep) ∧
    (∀ chk, ∃ t, exec (.encoderCount true chk false) s = .next t ∧ ended t ∧
      sent t (plainEntry .defect k .one) ∧ (t.lane ref.lane).launch = c.launch ∧
      t.tray? k = some { cond := .defective, seen := if chk then .occupied else .free
                         holder := none, partner := none, plan := none } ∧
      t.rep = (if p.state = .launched then
          (s.queueReport (.defect k .own)).queueReport (.mismatch k .tiltedTarget)
        else s.queueReport (.defect k .own)).rep) ∧
    ∃ t, exec (.encoderCount true false true) s = .next t ∧
      t.tray? k = some { r with seen := .free } ∧ t.plans = s.plans ∧ t.txq = s.txq ∧
      t.rep = s.rep

/-- An arrival makes a record PASSED unless it is OWN, DEFECTIVE or LEARNING; a zone exit makes a record OPEN
with seen NONE unless it is OWN, and a DEFECTIVE one keeps its mark. Stated for a position at which nothing
else falls, with no lane offering a parcel and no frame waiting for the tray (R9, R22, R29). -/
def Obligations.ArrivalAndZoneExitMoveRecord : Prop :=
  ∀ (s : State) (k : Nat) (r : TrayRec) (chk lvl : Bool), s.reachesQuietly = true →
    s.table.station = .online → s.tray? k = some r → (∀ l, s.offered l = []) →
    (s.trayEventsAt s.nextS = [.arrival k] → r.cond ≠ .own → r.cond ≠ .defective →
      r.cond ≠ .learning →
      ∃ t, exec (.encoderCount true chk lvl) s = .next t ∧
        t.tray? k = some { cond := .passed, seen := r.seen, holder := none, partner := none,
                           plan := none } ∧ t.txq = s.txq ∧ t.plans = s.plans) ∧
    (s.trayEventsAt s.nextS = [.zoneExit k] → s.staleEntries k = [] → r.cond ≠ .own →
      ∃ t, exec (.encoderCount true chk lvl) s = .next t ∧
        t.tray? k = some
          (if r.cond = .defective then { r with seen := .none }
           else { cond := .opened, seen := .none, holder := none, partner := none,
                  plan := none }) ∧ t.txq = s.txq ∧ t.plans = s.plans)

/-! ## Launch Planner -/

/-- A trigger reached finds a CLAIMED plan with its parcel READY: the plan is LAUNCHED, its trigger entry
empty, the parcel LAUNCHING, and the launch entry holds the plan's tray and span, the merge eye's level as
merge-seen and a timer of 0; the plan's aim is held, or counts as reached if the loop is there already. An
aim reached empties its entry and marks the plan, and nothing else follows. Stated for Loop Tracker counts in
agreement (R11, R12, R93, R127, R130). -/
def Obligations.TriggerLaunchesReadyParcel : Prop :=
  ∀ (s : State) (l : Lane) (sl : Slot) (p : Plan) (chk lvl : Bool), s.loopSound = true →
    s.reachesNext = true → s.trayEventsAt s.nextS = [] → s.plan l sl = some p →
    (∀ r, s.triggersAt s.nextS = [(l, sl)] → p.state = .claimed →
      (s.lane l).bySlot? sl = some r → r.place = .ready → r.tag = p.tag →
      ∃ t, exec (.encoderCount true chk lvl) s = .next t ∧
        (t.plan l sl).map Plan.state = some .launched ∧ t.trig.get l sl = none ∧
        (t.lane l).launch = some
          { tray := p.target, span := p.span, double := false
            mergeSeen := s.pins.mergeEye.get l, aborted := false, timer := 0 } ∧
        (∃ q ∈ (t.lane l).parcels, q.tag = p.tag ∧ q.place = .launching) ∧
        (s.fd s.nextS p.aim ≠ 0 → t.aims.get l sl = some p.aim ∧
          (t.plan l sl).map Plan.aimReached = some p.aimReached) ∧
        (s.fd s.nextS p.aim = 0 → (t.plan l sl).map Plan.aimReached = some true) ∧
        t.txq = s.txq ∧ t.trays = s.trays ∧ t.rep = s.rep) ∧
    (s.triggersAt s.nextS = [] → s.aims.get l sl = some s.nextS →
      ∃ t, exec (.encoderCount true chk lvl) s = .next t ∧ t.aims.get l sl = none ∧
        t.plan l sl = some { p with aimReached := true } ∧ t.txq = s.txq ∧ t.trays = s.trays ∧
        t.rep = s.rep)

/-- A trigger reached finds its plan TENTATIVE, or CLAIMED with the parcel not READY: the plan ends by a miss.
Its slot and trigger are free, its records OPEN, the RELEASE of a CLAIMED plan queued and the CLAIM of a
TENTATIVE one withdrawn, and its parcel counts one miss more; at the fourth the lane is BLOCKED for
UNPLACEABLE. The lane's plan of a later parcel is withdrawn with it without a miss, one of an earlier
parcel kept. Stated for a queue with room and where the Planner does not plan anew in the event (R11, R33,
R56, R98, R99, R130, R133, R135; REJECTED ahead of LANE is log 9's). -/
def Obligations.MissedTriggerEndsPlan : Prop :=
  ∀ (s : State) (l : Lane) (sl : Slot) (p : Plan) (r : Parcel) (chk lvl : Bool),
    s.reachesNext = true → s.triggersAt s.nextS = [(l, sl)] → s.trayEventsAt s.nextS = [] →
    s.table.station = .online → s.mayPlan = false → s.line.enabled = true →
    s.txq.length + 2 ≤ 8 → s.aims.get l (otherSlot sl) ≠ some s.nextS →
    s.plan l sl = some p → (s.lane l).bySlot? sl = some r →
    (s.lane l).parcel? p.tag = some r → (s.lane l).state ≠ .stopped →
    (p.state = .tentative ∨ (p.state = .claimed ∧ r.place ≠ .ready)) →
    let ref : PlanRef := { lane := l, tag := p.tag }
    let alone := s.plan l (otherSlot sl) = none
    ∃ t, exec (.encoderCount true chk lvl) s = .next t ∧ t.plan l sl = none ∧
      t.trig.get l sl = none ∧
      (∃ q ∈ (t.lane l).parcels, q.tag = r.tag ∧ q.misses = r.misses + 1 ∧ q.planSlot = none) ∧
      (∀ j ∈ s.namedTrays p.target p.span, ∀ q, s.tray? j = some q → q.cond = .own →
        q.plan = some ref → t.tray? j = some
          { cond := .opened, seen := q.seen, holder := none, partner := none, plan := none }) ∧
      (alone → p.state = .claimed → s.hasTwin (plainEntry .release p.target p.span) = false →
        t.txq = s.txq ++ [plainEntry .release p.target p.span]) ∧
      (∀ older e younger, alone → p.state = .tentative → s.txq = older ++ e :: younger →
        e.kind.isClaim = true → e.plan = some ref → e.phase = .waiting → e.ended = false →
        (∀ q ∈ older, q.plan ≠ some ref) → t.txq = older ++ younger) ∧
      (alone → r.misses + 1 < 4 → (t.lane l).state = (s.lane l).state ∧ t.rep = s.rep) ∧
      (alone → r.misses = 3 → r.named = none →
        ((s.lane l).state = .running ∨ (s.lane l).state = .paused) →
        (t.lane l).state = .blocked ∧ (t.lane l).reason = .unplaceable ∧
          (t.lane l).removal = true ∧
          (∃ q ∈ (t.lane l).parcels, q.tag = r.tag ∧ q.named = some .unplaceable ∧
            q.place = r.place) ∧
          t.rep = ((s.queueReport (.rejected l r.tag .unplaceable)).queueReport
            (.lane l .blocked .unplaceable)).rep) ∧
      ∀ q, s.plan l (otherSlot sl) = some q → q.tag ≠ p.tag →
        ((s.lane l).rank p.tag < (s.lane l).rank q.tag →
          t.plan l (otherSlot sl) = none ∧
            ∀ (m : Nat) (u : Parcel), (s.lane l).parcels[m]? = some u → u.tag = q.tag →
              ((t.lane l).parcels[m]?).map Parcel.misses = some u.misses) ∧
        (¬ (s.lane l).rank p.tag < (s.lane l).rank q.tag → t.plan l (otherSlot sl) = some q)

/-- The aim search accepts the nearest tray (or pair) that passes its tests: among all trays k of the loop at a
distance d from S with lead + G ≤ d ≤ H that are eligible (both trays of a pair) and whose aim keeps Q
behind the lane's own unreached aims and C from the other lane's, it answers the one with the least d; and
it answers none only where there is none (R125, R126). -/
def Obligations.AimSearchFindsNearestAcceptedTray : Prop :=
  ∀ (s : State) (l : Lane) (lead : Nat) (sp : Span), s.validated = true →
    s.loop.S < s.loopLength →
    let d := fun k => s.fd s.loop.S (s.aimOf k sp)
    let passes := fun k => k < s.cfgT ∧ lead + s.cfgG ≤ d k ∧ d k ≤ s.cfgH ∧
      (∀ j ∈ s.namedTrays k sp, s.eligible j = true) ∧
      (∀ sl p, s.plan l sl = some p → p.aimReached = false →
        s.fd s.loop.S p.aim + s.cfgQ l ≤ d k) ∧
      (∀ sl p, s.plan (otherLane l) sl = some p → p.aimReached = false →
        s.fd s.loop.S p.aim + s.cfgC ≤ d k ∨ d k + s.cfgC ≤ s.fd s.loop.S p.aim)
    (∀ k, s.searchAim l lead sp = some k → passes k ∧ ∀ j, passes j → d k ≤ d j) ∧
    (s.searchAim l lead sp = none → ∀ j, ¬ passes j)

/-- A claim granted makes the plan: its trays OWN for the plan with their seen state kept, its CLAIM at the
tail of the queue, and a TENTATIVE plan whose trigger, armed, lies its lead before the aim (R10, R30,
R128). Stated for a loop in lock that has not yet come to the trigger. -/
def Obligations.GrantedClaimMakesTentativePlan : Prop :=
  ∀ (s : State) (l : Lane) (sl : Slot) (tag : Tag) (k lead : Nat) (sp : Span) (r : TrayRec),
    s.loop.lock ≠ .unlocked → s.grants k sp = true → s.tray? k = some r →
    s.alreadyReached (s.fd lead (s.aimOf k sp)) = false → s.nextTray k ≠ k →
    let t := s.makePlan l sl tag k sp lead
    t.plan l sl = some
      { tag := tag, span := sp, target := k, aim := s.aimOf k sp, lead := lead
        trigger := s.fd lead (s.aimOf k sp), state := .tentative, double := false
        aimReached := false } ∧
      t.trig.get l sl = some (s.fd lead (s.aimOf k sp)) ∧
      t.txq = s.txq ++ [{ kind := .claim l, tray := k, span := sp
                          plan := some { lane := l, tag := tag }, phase := .waiting
                          ended := false }] ∧
      t.tray? k = some
        { cond := .own, seen := r.seen, holder := none
          partner := match sp with | .one => none | .two => some (s.nextTray k)
          plan := some { lane := l, tag := tag } } ∧
      (sp = .two → ∀ q, s.tray? (s.nextTray k) = some q → t.tray? (s.nextTray k) = some
        { cond := .own, seen := q.seen, holder := none, partner := some k
          plan := some { lane := l, tag := tag } }) ∧
      t.loop = s.loop ∧ t.rep = s.rep

/-- A planning event makes no claim unless the station is ONLINE, the loop in lock and vs at the minimum speed.
The lane that takes part alone plans alone; of two, the one whose oldest offered parcel came to HOLDING at
the earlier tick goes first, at one tick the one the arbiter record does not name, and the record then
names it (log 40 settles a difference of 2^31 ticks, left out here). The first lane's oldest offered parcel
gets the plan the aim search and the grant give; a refused request ends the event for both lanes; where
the first lane finds no tray the second plans. An arrival, and a parcel that comes to HOLDING with the
launch place taken, raise one planning event, made at the end of their event (log 7, DEDUCED) (R121, R122,
R123, R124, R128). -/
def Obligations.PlanningEventServesLanes : Prop :=
  ∀ s : State,
    let first := fun l => s.takesPart l = true ∧ (s.takesPart (otherLane l) = true →
      let d := (s.firstHold l - s.firstHold (otherLane l)).toInt
      (d < 0 ∧ d ≠ -2147483648) ∨ (d = 0 ∧ s.planner.arbiter = otherLane l))
    let arbiter := fun l => if s.takesPart (otherLane l) = true then l else s.planner.arbiter
    let leadFits := fun l r => s.leadOf l r + s.cfgG ≤ s.cfgH
    let aim := fun l (r : Parcel) => s.searchAim l (s.leadOf l r) (r.span.getD .one)
    let grantable := fun l (r : Parcel) k sl => leadFits l r ∧ aim l r = some k ∧
      s.grants k (r.span.getD .one) = true ∧ s.freeSlot? l = some sl ∧
      s.alreadyReached (s.fd (s.leadOf l r) (s.aimOf k (r.span.getD .one))) = false ∧
      ((s.lane l).parcels.map Parcel.tag).Nodup
    let made := fun l (r : Parcel) k => s.newPlan r.tag k (r.span.getD .one) (s.leadOf l r)
    let plans := s.table.station = .online ∧ s.loop.lock ≠ .unlocked ∧ s.cfgMinSpeed ≤ s.loop.vs
    (¬ plans → s.planningEvent = s) ∧
    (∀ l r younger k sl, plans → first l → s.offered l = r :: younger → grantable l r k sl →
      s.planningEvent.plan l sl = some (made l r k) ∧
        s.planningEvent.planner.arbiter = arbiter l ∧
        (younger = [] → s.takesPart (otherLane l) = false →
          s.planningEvent = s.makePlan l sl r.tag k (r.span.getD .one) (s.leadOf l r))) ∧
    (∀ l r younger k, plans → first l → s.offered l = r :: younger → leadFits l r →
      aim l r = some k → s.grants k (r.span.getD .one) = false →
      s.planningEvent = { s with planner := { s.planner with arbiter := arbiter l } }) ∧
    (∀ l r younger, plans → first l → s.offered l = r :: younger → leadFits l r →
      aim l r = none →
      (s.takesPart (otherLane l) = false → s.planningEvent = s) ∧
      ∀ q others k sl, s.takesPart (otherLane l) = true → s.offered (otherLane l) = q :: others →
        grantable (otherLane l) q k sl →
        s.planningEvent.plan (otherLane l) sl = some (made (otherLane l) q k) ∧
          s.planningEvent.planner.arbiter = l) ∧
    (∀ c u, s.pins.rstLow = false → s.atRest = true → s.table.station = .online →
      ((∃ k r chk lvl, c = .encoderCount true chk lvl ∧ s.reachesQuietly = true ∧
          s.trayEventsAt s.nextS = [.arrival k] ∧ s.tray? k = some r ∧
          (r.cond = .own ∨ r.cond = .defective ∨ r.cond = .learning) ∧
          u = { s with
            pins := { s.pins with chk := chk, lvl := lvl }, doubt := s.doubt - 1
            loop := { s.loop with
              S := s.nextS, frontier := s.nextS, travel := s.loop.travel + 1
              windowCount := s.loop.windowCount + 1 } }) ∨
        (∃ l r, c = .holdEyeBlocked l ∧ (s.lane l).feed = true ∧ (s.lane l).launchTaken = true ∧
          (s.lane l).at? .queued = some r ∧ ((s.lane l).parcels.map Parcel.tag).Nodup ∧
          u = s.toHolding l r)) →
      ∃ t, exec c s = .next t ∧ t.plans = u.planningEvent.plans ∧
        t.trig = u.planningEvent.trig ∧ t.trays = u.planningEvent.trays ∧
        t.txq = u.planningEvent.txq ∧ t.planner = u.planningEvent.planner ∧
        t.rep = u.planningEvent.rep)

/-- A lead that leaves no room for an aim makes no plan: the lane's suspension is set and reported with the
lane's state, and while it is set the lane takes no part. A window end tests it with the vs just formed:
it stays set exactly where it was set and some parcel the lane offers still has such a lead. Stated for a
planning event in which the other lane takes no part, and for a window end that retimes no plan (R120,
R122, R132). -/
def Obligations.LeadRangeSuspendsLane : Prop :=
  (∀ (s : State) (l : Lane), s.mayPlan = true → s.takesPart (otherLane l) = false →
    (∀ r younger, s.planner.suspended.get l = false → s.offered l = r :: younger →
      s.cfgH < s.leadOf l r + s.cfgG →
      s.planningEvent = { s with
        planner := { s.planner with suspended := s.planner.suspended.set l true }
        rep := (s.queueReport (.lane l (s.lane l).state .leadRange)).rep }) ∧
    (s.planner.suspended.get l = true → s.planningEvent = s)) ∧
  ∀ s : State, s.pins.rstLow = false →
    (∀ l sl p, s.plan l sl = some p → p.state = .launched) →
    let v := min s.loop.windowCount.toNat 600
    ∃ t, exec .windowEnd s = .next t ∧ t.plans = s.plans ∧ t.txq = s.txq ∧
      ∀ l, t.planner.suspended.get l = true ↔ s.planner.suspended.get l = true ∧
        ∃ r ∈ s.offered l, s.cfgH < s.leadAt l (r.length.getD 0) v + s.cfgG

/-- A window end retimes an unlaunched plan with the vs just formed: where its tray can still be reached its
lead and trigger become the new ones, and a trigger the loop has already come to is taken at once, which
launches a CLAIMED plan with its parcel READY; where the tray is nearer than the new lead the plan ends by
a miss. A LAUNCHED plan is not retimed. Stated for a station ONLINE and a loop in lock with one live plan
(R11, R93, R98, R119, R130, R131, R132, R133). -/
def Obligations.WindowEndRetimesPlans : Prop :=
  ∀ (s : State) (l : Lane) (sl : Slot) (p : Plan), s.pins.rstLow = false →
    s.loop.lock ≠ .unlocked → s.table.station = .online → s.plan l sl = some p →
    (∀ m sm q, s.plan m sm = some q → m = l ∧ sm = sl) →
    (p.state = .launched → ∃ t, exec .windowEnd s = .next t ∧ t.plan l sl = some p) ∧
    ∀ r, p.state ≠ .launched → (s.lane l).bySlot? sl = some r → r.tag = p.tag →
      (s.lane l).state ≠ .stopped → (s.trig.get l sl).isSome = true →
      let v := min s.loop.windowCount.toNat 600
      let lead := s.leadAt l (r.length.getD 0) v
      let trigger := s.fd lead p.aim
      (lead ≤ s.fd s.loop.S p.aim → s.alreadyReached trigger = false →
        ∃ t, exec .windowEnd s = .next t ∧
          t.plan l sl = some { p with lead := lead, trigger := trigger } ∧
          t.trig.get l sl = some trigger ∧ t.trays = s.trays ∧ t.txq = s.txq ∧
          t.lanes.l0.parcels = s.lanes.l0.parcels ∧ t.lanes.l1.parcels = s.lanes.l1.parcels) ∧
      (lead ≤ s.fd s.loop.S p.aim → s.alreadyReached trigger = true → p.state = .claimed →
        r.place = .ready →
        ∃ t, exec .windowEnd s = .next t ∧ (t.plan l sl).map Plan.state = some .launched ∧
          t.trig.get l sl = none ∧ (t.lane l).launch = some
            { tray := p.target, span := p.span, double := false
              mergeSeen := s.pins.mergeEye.get l, aborted := false, timer := 0 } ∧
          t.trays = s.trays ∧ t.txq = s.txq) ∧
      (s.fd s.loop.S p.aim < lead →
        ∃ t, exec .windowEnd s = .next t ∧
          (∃ q ∈ (t.lane l).parcels, q.tag = r.tag ∧ r.misses < q.misses) ∧
          (v < s.cfgMinSpeed → t.plan l sl = none ∧ t.trig.get l sl = none ∧
            ∃ q ∈ (t.lane l).parcels, q.tag = r.tag ∧ q.misses = r.misses + 1))

/-! ## Pace Generator -/

/-- A window end forms the target from the supply: none off lock, off line, at vs 0 or below the minimum
speed, with no lane RUNNING, without an eligible tray or above 6000 ms; else 100·P·W·n / (vs·F) over all
trays (or pairs) of the loop in reach of the nominal parcel. While the loop moves, a RUNNING lane without a
target keeps its index with the cadence not valid; with one it takes the called entry, the lowest whose
interval is at least the target and not below its minimum entry: a slower or equal one at once, a faster
one at the fifth call in a row. A lane not RUNNING keeps its pace. Stated for a validated configuration
and a window end that retimes no plan (R119, R138, R139, R140). -/
def Obligations.WindowEndSetsPaces : Prop :=
  ∀ s : State, s.pins.rstLow = false → s.validated = true → s.loop.S < s.loopLength →
    (∀ l sl p, s.plan l sl = some p → p.state = .launched) →
    let cadence : List Nat := [500, 600, 700, 800, 900, 1000, 1200, 1400, 1600, 1800, 2000, 2500,
      3000, 4000, 5000, 6000]
    let v := min s.loop.windowCount.toNat 600
    let sp := if s.cfgNominal ≤ s.cfgSingle .l0 then Span.one else .two
    let lead := s.leadAt .l0 s.cfgNominal v
    let reach := (List.range s.cfgT).filter fun k =>
      decide (lead + s.cfgG ≤ s.fd s.loop.S (s.aimOf k sp)) &&
        decide (s.fd s.loop.S (s.aimOf k sp) ≤ s.cfgH)
    let W := reach.length
    let F := (reach.filter fun k => (s.namedTrays k sp).all s.eligible).length
    let n := ([Lane.l0, .l1].filter fun l => (s.lane l).state == .running).length
    let ms := 100 * s.cfgP * W * n / (v * F)
    let target := if s.loop.lock = .unlocked ∨ s.table.station ≠ .online ∨ v = 0 ∨
        v < s.cfgMinSpeed ∨ n = 0 ∨ F = 0 ∨ 6000 < ms then none else some ms
    ∃ t, exec .windowEnd s = .next t ∧ t.pace.target = target ∧
      ∀ l, t.loop.motion = .moving →
        let old := s.pace.lanes.get l
        let new := t.pace.lanes.get l
        ((s.lane l).state ≠ .running →
          new.index = old.index ∧ new.hyst = old.hyst ∧ new.valid = old.valid) ∧
        ((s.lane l).state = .running → target = none →
          new.index = old.index ∧ new.hyst = 0 ∧ new.valid = false) ∧
        ∀ wanted c slow, (s.lane l).state = .running → target = some wanted →
          cadence[c]? = some slow → wanted ≤ slow →
          (∀ j fast, j < c → cadence[j]? = some fast → fast < wanted) →
          let called := max c (s.cfgMinEntry l)
          new.valid = true ∧
            (old.index ≤ called → new.index = called ∧ new.hyst = 0) ∧
            (called < old.index → old.hyst + 1 = 5 → new.index = called ∧ new.hyst = 0) ∧
            (called < old.index → old.hyst + 1 ≠ 5 →
              new.index = old.index ∧ new.hyst = old.hyst + 1)

/-- In GO a pulse timer at the lane's interval or beyond gives a pulse at GO_PULSE: the GO lamp lights and the
timer starts afresh; short of the interval GO_PULSE does nothing. The pulse's end darkens the GO lamp. In
WAIT the blink darkens the STOP lamp at 250 ms and lights it again at the end of its second. That timer
and that lamp alone move, and in another aspect nothing (R143, R144; that GO_PULSE_END and WAIT_BLINK mean
those timers' moments is log 1's). -/
def Obligations.LampTimersDriveLamps : Prop :=
  ∀ (s : State) (l : Lane), s.pins.rstLow = false → s.atRest = true →
    let p := s.pace.lanes.get l
    let moved := fun (q : PaceLane) (o : Outs) =>
      { s with pace := { s.pace with lanes := s.pace.lanes.set l q }, outs := o }
    (p.aspect = .go →
      (interval p.index ≤ p.pulse → exec (.goPulse l) s = .next
        (moved { p with pulse := 0 } { s.outs with lampGo := s.outs.lampGo.set l true })) ∧
      (p.pulse < interval p.index → exec (.goPulse l) s = .next s) ∧
      exec (.goPulseEnd l) s = .next (moved { p with pulse := max p.pulse 250 }
        { s.outs with lampGo := s.outs.lampGo.set l false })) ∧
    (p.aspect ≠ .go → exec (.goPulse l) s = .next s ∧ exec (.goPulseEnd l) s = .next s) ∧
    (p.aspect = .wait → exec (.waitBlink l) s = .next (moved
      { p with blink := if p.blink < 250 then 250 else 0 }
      { s.outs with lampStop := s.outs.lampStop.set l (!decide (p.blink < 250)) })) ∧
    (p.aspect ≠ .wait → exec (.waitBlink l) s = .next s)

/-! ## Induction line: frames heard -/

/-- A single CLAIM heard makes an OPEN record HELD by the sender's standing with the sender as holder, and
leaves a record that is neither OPEN nor OWN; a span CLAIM of two OPEN records holds both and makes them
partners. A span CLAIM is refused, and changes no record, where either record is held, LOADED_AHEAD or OWN
for a plan not TENTATIVE; of an OPEN record and one that is LEARNING, STRAY, PASSED or DEFECTIVE it holds the
OPEN one without a partner and keeps the other. The receiver is HUNTING after the frame, its idle run counting the frame's last high bits (R47,
R67, R70, R72, R73; log 17 says which frames are heard and where the idle run then stands). -/
def Obligations.HeardClaimHoldsOpenTrays : Prop :=
  ∀ (s : State) (st x k : Nat) (lane : Lane) (r : TrayRec), s.pins.rstLow = false →
    s.hears = true → s.line.rxFault = false → s.mapInUse = true → s.tray? k = some r →
    let f := fun sp : Span =>
      ({ kind := .claim lane, station := st, location := x, tray := k, span := sp } : FrameData)
    s.fieldReject (f .one) = none →
    let held := if s.zoneOffset x ≤ s.zoneOffset s.cfgX then Cond.heldAhead else Cond.heldBehind
    (r.cond = .opened → s.atRest = true →
      ∃ trays, exec (.claimHeard st x k .one lane) s = .next
          { s with line := s.lineAfter (f .one), trays := trays } ∧
        trays[k]? = some
          { cond := held, seen := r.seen, holder := some st, partner := none, plan := none } ∧
        ∀ j, j ≠ k → r.partner ≠ some j → trays[j]? = s.trays[j]?) ∧
    (r.cond ≠ .opened → r.cond ≠ .own → s.atRest = true →
      exec (.claimHeard st x k .one lane) s = .next { s with line := s.lineAfter (f .one) }) ∧
    (∀ q, s.tray? (s.nextTray k) = some q → s.nextTray k ≠ k → r.cond = .opened →
      q.cond = .opened → s.atRest = true →
      ∃ trays, exec (.claimHeard st x k .two lane) s = .next
          { s with line := s.lineAfter (f .two), trays := trays } ∧
        trays[k]? = some
          { cond := held, seen := r.seen, holder := some st, partner := some (s.nextTray k)
            plan := none } ∧
        trays[s.nextTray k]? = some
          { cond := held, seen := q.seen, holder := some st, partner := some k, plan := none }) ∧
    ∀ q, s.tray? (s.nextTray k) = some q → s.nextTray k ≠ k → s.atRest = true →
      let refuses := fun u : TrayRec => u.cond = .heldAhead ∨ u.cond = .heldBehind ∨
        u.cond = .loadedAhead ∨ (u.cond = .own ∧ s.planStateOf? u ≠ some .tentative)
      let aside := fun u : TrayRec => u.cond = .learning ∨ u.cond = .stray ∨ u.cond = .passed ∨
        u.cond = .defective
      (refuses r ∨ refuses q → exec (.claimHeard st x k .two lane) s = .next
        { s with line := s.lineAfter (f .two) }) ∧
      (r.cond = .opened → r.partner = none → aside q →
        exec (.claimHeard st x k .two lane) s = .next { s with
          line := s.lineAfter (f .two)
          trays := s.trays.set k { cond := held, seen := r.seen, holder := some st
                                   partner := none, plan := none } }) ∧
      (q.cond = .opened → q.partner = none → aside r →
        exec (.claimHeard st x k .two lane) s = .next { s with
          line := s.lineAfter (f .two)
          trays := s.trays.set (s.nextTray k) { cond := held, seen := q.seen, holder := some st
                                                partner := none, plan := none } })

/-- A frame heard for a tray this station has claimed. A CLAIM takes the tray of a TENTATIVE plan: the record is
HELD by the sender, the plan ends and its waiting CLAIM leaves the queue; any other plan's record is kept.
A span CLAIM takes it with an OPEN next tray, or with one OWN for the other lane's TENTATIVE plan, which
then ends too: both are HELD, each the other's partner. A LOADED or OCCUPIED from ahead abandons a plan not
LAUNCHED: the record is LOADED_AHEAD or STRAY by the sender, a CLAIMED plan's RELEASE is queued; a LAUNCHED
plan keeps its record, is marked double and reported DOUBLE_LOAD. A DEFECT makes the record DEFECTIVE and
reports it, then TILTED_TARGET for a LAUNCHED plan; the plan is abandoned, its RELEASE queued unless it was
TENTATIVE, and a launch runs on. The plan's other record becomes OPEN, and no miss is counted. Stated for a
lane with no other plan, and where the Planner does not plan anew (R33, R67, R71, R72, R73, R74, R80, R83, R134). -/
def Obligations.HeardFrameMeetsOwnRecord : Prop :=
  ∀ (s : State) (st x k : Nat) (r : TrayRec) (ref : PlanRef) (sl : Slot) (p : Plan),
    s.pins.rstLow = false → s.hears = true → s.line.rxFault = false →
    s.table.station = .online → s.mayPlan = false →
    s.fieldReject { kind := .defect, station := st, location := x, tray := k, span := .one } =
      none →
    s.tray? k = some r → r.cond = .own → r.plan = some ref →
    s.slotOf? ref.lane ref.tag = some sl → s.plan ref.lane sl = some p →
    s.plan ref.lane (otherSlot sl) = none → s.txq.length < 8 →
    s.hasTwin (plainEntry .release p.target p.span) = false →
    let c := s.lane ref.lane
    let ahead := s.zoneOffset x ≤ s.zoneOffset s.cfgX
    let ended := fun (t : State) =>
      t.plan ref.lane sl = none ∧ t.trig.get ref.lane sl = none ∧ t.loop = s.loop ∧
        t.doubt = s.doubt ∧
        (t.lane ref.lane).parcels.map Parcel.misses = c.parcels.map Parcel.misses ∧
        (p.state ≠ .tentative → t.txq = s.txq ++ [plainEntry .release p.target p.span]) ∧
        (∀ older e younger, p.state = .tentative → s.txq = older ++ e :: younger →
          e.kind.isClaim = true → e.plan = some ref → e.phase = .waiting → e.ended = false →
          (∀ q ∈ older, q.plan ≠ some ref) → t.txq = older ++ younger) ∧
        ∀ j ∈ s.namedTrays p.target p.span, j ≠ k → ∀ q, s.tray? j = some q → q.cond = .own →
          q.plan = some ref → t.tray? j = some
            { cond := .opened, seen := q.seen, holder := none, partner := none, plan := none }
    let loads := fun (i : Instr) (cond : Cond) =>
      ((∃ chute double, i = .loadedHeard st x k .one chute double) ∧ cond = .loadedAhead) ∨
        (i = .occupiedHeard st x k .one ∧ cond = .stray)
    (∀ lane, p.state = .tentative →
      ∃ t, exec (.claimHeard st x k .one lane) s = .next t ∧ ended t ∧ t.rep = s.rep ∧
        t.tray? k = some
          { cond := if ahead then .heldAhead else .heldBehind, seen := r.seen
            holder := some st, partner := none, plan := none }) ∧
    (∀ lane q, p.state = .tentative → s.tray? (s.nextTray k) = some q → s.nextTray k ≠ k →
      let both := fun t : State =>
        t.tray? k = some { cond := if ahead then .heldAhead else .heldBehind, seen := r.seen
                           holder := some st, partner := some (s.nextTray k), plan := none } ∧
        t.tray? (s.nextTray k) = some
          { cond := if ahead then .heldAhead else .heldBehind, seen := q.seen
            holder := some st, partner := some k, plan := none }
      (q.cond = .opened → ∃ t, exec (.claimHeard st x k .two lane) s = .next t ∧ ended t ∧
        t.rep = s.rep ∧ both t) ∧
      ∀ ref' sl' p', q.cond = .own → q.plan = some ref' → ref'.lane = otherLane ref.lane →
        s.slotOf? ref'.lane ref'.tag = some sl' → s.plan ref'.lane sl' = some p' →
        s.plan ref'.lane (otherSlot sl') = none → p'.state = .tentative →
        ∃ t, exec (.claimHeard st x k .two lane) s = .next t ∧ t.plan ref.lane sl = none ∧
          t.plan ref'.lane sl' = none ∧ t.trig.get ref.lane sl = none ∧
          t.trig.get ref'.lane sl' = none ∧ t.rep = s.rep ∧ both t) ∧
    (∀ lane, p.state ≠ .tentative →
      ∃ t, exec (.claimHeard st x k .one lane) s = .next t ∧ t.trays = s.trays ∧
        t.plans = s.plans ∧ t.txq = s.txq ∧ t.rep = s.rep) ∧
    (∀ i cond, loads i cond → ahead → p.state ≠ .launched →
      ∃ t, exec i s = .next t ∧ ended t ∧ t.rep = s.rep ∧ t.tray? k = some
        { cond := cond, seen := r.seen, holder := some st, partner := none, plan := none }) ∧
    (∀ i cond, loads i cond → ahead → p.state = .launched →
      ∃ t, exec i s = .next t ∧ t.trays = s.trays ∧
        t.plan ref.lane sl = some { p with double := true } ∧
        (t.lane ref.lane).launch = c.launch.map (fun e => { e with double := true }) ∧
        t.txq = s.txq ∧ t.rep = (s.queueReport (.mismatch k .doubleLoad)).rep) ∧
    (∀ i cond, loads i cond → ¬ ahead →
      ∃ t, exec i s = .next t ∧ t.trays = s.trays ∧ t.plans = s.plans ∧ t.txq = s.txq ∧
        t.rep = s.rep) ∧
    ∃ t, exec (.defectHeard st x k .one) s = .next t ∧ ended t ∧
      (t.lane ref.lane).launch = c.launch ∧
      t.tray? k = some { cond := .defective, seen := r.seen, holder := none, partner := none
                         plan := none } ∧
      t.rep = (if p.state = .launched then
          (s.queueReport (.defect k .heard)).queueReport (.mismatch k .tiltedTarget)
        else s.queueReport (.defect k .heard)).rep

/-- A RELEASE heard makes a held record OPEN when it names that record's holder, and changes no other record;
a span RELEASE does so for both trays (R76, R77; where the idle run then stands is R47 as log 17 takes
it). -/
def Obligations.HeardReleaseOpensItsOwnHolding : Prop :=
  ∀ (s : State) (st x k : Nat) (r : TrayRec), s.pins.rstLow = false → s.hears = true →
    s.line.rxFault = false → s.mapInUse = true → s.atRest = true → s.tray? k = some r →
    let f := fun sp : Span =>
      ({ kind := .release, station := st, location := x, tray := k, span := sp } : FrameData)
    s.fieldReject (f .one) = none →
    ((r.cond = .heldAhead ∨ r.cond = .heldBehind) → r.holder = some st →
      ∃ trays, exec (.releaseHeard st x k .one) s = .next
          { s with line := s.lineAfter (f .one), trays := trays } ∧
        trays[k]? = some
          { cond := .opened, seen := r.seen, holder := none, partner := none, plan := none } ∧
        ∀ j, j ≠ k → r.partner ≠ some j → trays[j]? = s.trays[j]?) ∧
    ((r.cond ≠ .heldAhead ∧ r.cond ≠ .heldBehind) ∨ r.holder ≠ some st →
      exec (.releaseHeard st x k .one) s = .next { s with line := s.lineAfter (f .one) }) ∧
    (∀ q, s.tray? (s.nextTray k) = some q → s.nextTray k ≠ k → r.holder = some st →
      q.holder = some st → (r.cond = .heldAhead ∨ r.cond = .heldBehind) →
      (q.cond = .heldAhead ∨ q.cond = .heldBehind) →
      ∃ trays, exec (.releaseHeard st x k .two) s = .next
          { s with line := s.lineAfter (f .two), trays := trays } ∧
        trays[k]? = some
          { cond := .opened, seen := r.seen, holder := none, partner := none, plan := none } ∧
        trays[s.nextTray k]? = some
          { cond := .opened, seen := q.seen, holder := none, partner := none, plan := none })

/-- A LOADED or OCCUPIED heard from ahead makes an OPEN or held record LOADED_AHEAD or STRAY with the sender
as holder and leaves one that is loaded, stray, passed, learning or defective; a span frame makes two OPEN
records so, each the other's partner; from behind it changes no record (R68, R78, R79, R81; where the idle
run then stands is R47 as log 17 takes it). -/
def Obligations.HeardTakenTrayFollowsSender : Prop :=
  ∀ (s : State) (c : Span → Instr) (kind : FrameKind) (cond : Cond) (st x k : Nat) (r : TrayRec),
    s.pins.rstLow = false → s.hears = true → s.line.rxFault = false → s.mapInUse = true →
    s.atRest = true → s.tray? k = some r →
    let f := fun sp : Span =>
      ({ kind := kind, station := st, location := x, tray := k, span := sp } : FrameData)
    s.fieldReject (f .one) = none →
    ((∃ chute double, c = (fun sp => .loadedHeard st x k sp chute double) ∧
        kind = .loaded chute double) ∧ cond = .loadedAhead ∨
      (c = fun sp => .occupiedHeard st x k sp) ∧ kind = .occupied ∧ cond = .stray) →
    (s.zoneOffset x ≤ s.zoneOffset s.cfgX →
      (r.cond = .opened ∨ r.cond = .heldAhead ∨ r.cond = .heldBehind) →
      ∃ trays, exec (c .one) s = .next { s with line := s.lineAfter (f .one), trays := trays } ∧
        trays[k]? = some
          { cond := cond, seen := r.seen, holder := some st, partner := none, plan := none } ∧
        ∀ j, j ≠ k → r.partner ≠ some j → trays[j]? = s.trays[j]?) ∧
    (∀ q, s.zoneOffset x ≤ s.zoneOffset s.cfgX → s.tray? (s.nextTray k) = some q →
      s.nextTray k ≠ k → r.cond = .opened → q.cond = .opened →
      ∃ trays, exec (c .two) s = .next { s with line := s.lineAfter (f .two), trays := trays } ∧
        trays[k]? = some
          { cond := cond, seen := r.seen, holder := some st, partner := some (s.nextTray k)
            plan := none } ∧
        trays[s.nextTray k]? = some
          { cond := cond, seen := q.seen, holder := some st, partner := some k, plan := none }) ∧
    (s.zoneOffset s.cfgX < s.zoneOffset x →
      ∀ sp, exec (c sp) s = .next { s with line := s.lineAfter (f sp) }) ∧
    (r.cond ≠ .opened ∧ r.cond ≠ .heldAhead ∧ r.cond ≠ .heldBehind ∧ r.cond ≠ .own →
      exec (c .one) s = .next { s with line := s.lineAfter (f .one) })

/-- A DEFECT heard marks a record that is neither OWN nor DEFECTIVE, whatever the sender's standing, and
reports it; a span DEFECT marks both trays and reports the leading one first; a DEFECTIVE record is left and
not reported again (R68, R82; where the idle run then stands is R47 as log 17 takes it). -/
def Obligations.HeardDefectMarksTray : Prop :=
  ∀ (s : State) (st x k : Nat) (r : TrayRec), s.pins.rstLow = false → s.hears = true →
    s.line.rxFault = false → s.mapInUse = true → s.tray? k = some r →
    let f : FrameData := { kind := .defect, station := st, location := x, tray := k, span := .one }
    s.fieldReject f = none →
    (r.cond ≠ .own → r.cond ≠ .defective →
      ∃ t, exec (.defectHeard st x k .one) s = .next t ∧
        t.tray? k = some { cond := .defective, seen := r.seen, holder := none, partner := none,
                           plan := none } ∧
        (∀ j, j ≠ k → r.partner ≠ some j → t.tray? j = s.tray? j) ∧
        t.rep = (s.queueReport (.defect k .heard)).rep ∧ t.plans = s.plans ∧ t.txq = s.txq ∧
        t.loop = s.loop ∧ t.doubt = s.doubt) ∧
    (∀ q, s.tray? (s.nextTray k) = some q → s.nextTray k ≠ k → r.cond ≠ .own →
      r.cond ≠ .defective → q.cond ≠ .own → q.cond ≠ .defective →
      ∃ t, exec (.defectHeard st x k .two) s = .next t ∧
        t.tray? k = some { cond := .defective, seen := r.seen, holder := none, partner := none,
                           plan := none } ∧
        t.tray? (s.nextTray k) = some { cond := .defective, seen := q.seen, holder := none,
                                        partner := none, plan := none } ∧
        t.rep = ((s.queueReport (.defect k .heard)).queueReport
          (.defect (s.nextTray k) .heard)).rep ∧ t.plans = s.plans ∧ t.txq = s.txq) ∧
    (r.cond = .defective → s.atRest = true →
      exec (.defectHeard st x k .one) s = .next { s with line := s.lineAfter f })

/-- A received buffer that fails form or check, the check also by a framing-fault mark held, is reported with
its reason and kind code and, for the check alone, starts the doubt window of a map in use; one whose
fields fail is reported with the frame's kind and starts it for TRAY and LOCATION; a tenth byte is a
LENGTH at once and sends the receiver to DISCARDING. A frame heard while the mark is held fails its check.
The idle run at a frame's end is 10 where its last stop bit read low, as the command or the mark held says,
and otherwise counts its last high bits too. No record, plan or queue entry changes. A receiver off or
DISCARDING takes no frame; RECEIVER_ENTERS_HUNTING makes a DISCARDING one hunt with an empty buffer and an
idle run of ten or more, and changes nothing else (R40, R47, R49, R50, R51, R59; the commands' meaning is logs
17 and 18's). -/
def Obligations.ReceiverRejectsFrames : Prop :=
  ∀ (s : State) (bytes : List Byte) (stops : StopBits), s.pins.rstLow = false →
    let window := min s.cfgDoubtDistance s.loopLength
    let mark := stops != .good || s.line.rxFault
    let run := fun received : List Byte =>
      if s.line.rxFault = true ∧ received.length ≤ s.line.rxBuf.length then 10 else endRun received
    let runSaid := if stops = .lastLow then 10 else run bytes
    let kept := fun (t : State) => t.line.rx = .hunting ∧ t.line.rxBuf = [] ∧
      t.line.rxFault = false ∧ t.trays = s.trays ∧ t.plans = s.plans ∧ t.txq = s.txq ∧
      t.loop = s.loop
    (∀ why, s.hears = true → parseFrame bytes mark = .error why →
      ∃ t, exec (.receivedFrameRejected bytes stops false) s = .next t ∧ kept t ∧
        t.line.idleRun = runSaid ∧
        t.rep = (s.queueReport (.frameRejected why (kindCodeOf bytes))).rep ∧
        t.doubt = (if why = .crc ∧ s.mapInUse = true then window else s.doubt)) ∧
    (∀ f why, s.hears = true → parseFrame bytes mark = .ok f → s.fieldReject f = some why →
      ∃ t, exec (.receivedFrameRejected bytes stops false) s = .next t ∧ kept t ∧
        t.line.idleRun = runSaid ∧
        t.rep = (s.queueReport (.frameRejected why f.kind.code)).rep ∧
        t.doubt = (if (why = .tray ∨ why = .location) ∧ s.mapInUse = true then window
          else s.doubt)) ∧
    (s.hears = true →
      ∃ t, exec (.receivedFrameRejected bytes stops true) s = .next t ∧
        t.rep = (s.queueReport (.frameRejected .length (kindCodeOf bytes))).rep ∧
        t.line.rx = .discarding ∧ t.line.rxBuf = [] ∧ t.doubt = s.doubt ∧ t.trays = s.trays ∧
        t.plans = s.plans ∧ t.txq = s.txq ∧ t.loop = s.loop) ∧
    (∀ c f, s.hears = true → s.line.rxFault = true → heardFrame c = some f →
      ∃ t, exec c s = .next t ∧ kept t ∧ t.line.idleRun = run (frameBytes f) ∧
        t.rep = (s.queueReport (.frameRejected .crc f.kind.code)).rep ∧
        t.doubt = (if s.mapInUse = true then window else s.doubt)) ∧
    (s.hears = false →
      (∀ c f, heardFrame c = some f → exec c s = .next s) ∧
      ∀ tenth, exec (.receivedFrameRejected bytes stops tenth) s = .next s) ∧
    (s.line.enabled = true → s.line.rx = .discarding →
      exec .receiverEntersHunting s = .next { s with
        line := { s.line with
          rx := .hunting, rxBuf := [], rxFault := false, idleRun := max s.line.idleRun 10 } }) ∧
    (s.line.enabled = false ∨ s.line.rx ≠ .discarding → exec .receiverEntersHunting s = .next s)

/-! ## Induction line: frames sent -/

/-- An OCCUPIED placed where the queue holds one for the tray is discarded. At a full queue room is made first:
the most recently placed waiting CLAIM leaves, its TENTATIVE plan ends and nothing is reported; without a
waiting CLAIM the oldest waiting entry leaves and is reported DROPPED. At a tray's zone exit the entry
waiting for it leaves: a CLAIM ends its plan, another kind is reported DROPPED. Stated for the check
event of an OPEN record, for one stale entry, and where the Planner does not plan anew (R24, R33, R53, R55,
R57). -/
def Obligations.QueueDropsTwinsMakesRoomAndGoesStale : Prop :=
  ∀ (s : State) (k : Nat) (older younger : List TxEntry) (e : TxEntry),
    s.reachesQuietly = true → s.table.station = .online → s.mayPlan = false →
    s.line.enabled = true → s.txq = older ++ e :: younger → e.phase = .waiting →
    let own := plainEntry .occupied k .one
    let endsPlan := fun (t : State) (added : List TxEntry) => ∀ ref sl p,
      e.kind.isClaim = true → e.plan = some ref → e.ended = false →
      (∀ q ∈ older ++ younger, q.plan ≠ some ref) → s.slotOf? ref.lane ref.tag = some sl →
      s.plan ref.lane sl = some p → p.state = .tentative → s.plan ref.lane (otherSlot sl) = none →
      t.txq = older ++ younger ++ added ∧
        t.plan ref.lane sl = none ∧ t.trig.get ref.lane sl = none ∧ t.rep = s.rep ∧
        ∀ j ∈ s.namedTrays p.target p.span, j ≠ k → ∀ q, s.tray? j = some q → q.cond = .own →
          q.plan = some ref → t.tray? j = some
            { cond := .opened, seen := q.seen, holder := none, partner := none, plan := none }
    (s.trayEventsAt s.nextS = [.check k] → (s.tray? k).map TrayRec.cond = some .opened →
      ∃ t, exec (.encoderCount true true true) s = .next t ∧
        (s.hasTwin own = true → t.txq = s.txq ∧ t.rep = s.rep ∧ t.plans = s.plans) ∧
        (s.hasTwin own = false → s.txq.length = 8 →
          (∀ q ∈ older ++ e :: younger, q.kind.isClaim = true → q.phase = .sending) →
          (∀ q ∈ older, q.phase = .sending) →
          t.txq = older ++ younger ++ [own] ∧
            t.rep = (s.queueReport (.lineDropped e.kind.code e.tray)).rep ∧
            t.plans = s.plans) ∧
        (s.hasTwin own = false → s.txq.length = 8 →
          (∀ q ∈ younger, q.kind.isClaim = true → q.phase = .sending) → endsPlan t [own])) ∧
    (∀ chk lvl, s.trayEventsAt s.nextS = [.zoneExit k] → e.tray = k →
      (∀ q ∈ older ++ younger, q.tray = k → q.phase = .sending) →
      ∃ t, exec (.encoderCount true chk lvl) s = .next t ∧
        (e.kind.isClaim = false →
          t.txq = older ++ younger ∧
            t.rep = (s.queueReport (.lineDropped e.kind.code k)).rep ∧ t.plans = s.plans) ∧
        endsPlan t [])

/-- An attempt starts for a waiting head with no backoff standing: the head alone becomes SENDING, and a CLAIM
only where its plan is TENTATIVE and its trays are OWN for it. A CLAIM whose plan is gone, or that is marked
as of an ended plan though its parcel has been planned anew, leaves the queue and nothing else changes; one
whose TENTATIVE plan no longer has its trays leaves with its plan, which ends by withdrawal (stated for the
lane's only plan and where the Planner does not plan anew) (R33, R56, R58; log 19 says what the receiver
holds). -/
def Obligations.AttemptSendsHead : Prop :=
  ∀ (s : State) (e : TxEntry) (rest : List TxEntry), s.pins.rstLow = false →
    s.line.enabled = true → s.txq = e :: rest → e.phase = .waiting → s.line.backoff = 0 →
    ((e.kind.isClaim = true → s.recheck e = true) →
      exec .frameAttemptStart s = .next { s with
        txq := { e with phase := .sending } :: rest
        line := { s.line with
          idleRun := 0, holdCount := 0, rx := .receiving, rxBuf := [], rxFault := false } }) ∧
    (∀ ref, e.kind.isClaim = true → e.plan = some ref → s.slotOf? ref.lane ref.tag = none →
      s.table.station ≠ .leaving →
      ∃ t, exec .frameAttemptStart s = .next t ∧ t.txq = rest ∧ t.line.attempt = 0 ∧
        t.line.backoff = 0 ∧ t.trays = s.trays ∧ t.plans = s.plans ∧ t.rep = s.rep) ∧
    (e.kind.isClaim = true → e.ended = true → s.table.station ≠ .leaving →
      ∃ t, exec .frameAttemptStart s = .next t ∧ t.txq = rest ∧ t.line.attempt = 0 ∧
        t.line.backoff = 0 ∧ t.trays = s.trays ∧ t.plans = s.plans ∧ t.rep = s.rep) ∧
    ∀ ref sl p, e.kind.isClaim = true → e.ended = false → e.plan = some ref →
      s.slotOf? ref.lane ref.tag = some sl → s.plan ref.lane sl = some p → p.state = .tentative →
      s.recheck e = false → s.plan ref.lane (otherSlot sl) = none →
      (∀ q ∈ rest, q.plan ≠ some ref) → s.mayPlan = false → s.table.station ≠ .leaving →
      ∃ t, exec .frameAttemptStart s = .next t ∧ t.txq = rest ∧ t.line.attempt = 0 ∧
        t.line.backoff = 0 ∧ t.plan ref.lane sl = none ∧ t.trig.get ref.lane sl = none ∧
        t.rep = s.rep ∧
        ∀ j ∈ s.namedTrays p.target p.span, ∀ q, s.tray? j = some q → q.cond = .own →
          q.plan = some ref → t.tray? j = some
            { cond := .opened, seen := q.seen, holder := none, partner := none, plan := none }

/-- A failed attempt, by collision, by a line fault or by a line held, leaves the head waiting with one attempt
more and the backoff of its attempt and station; a line held also clears the hold count. At the sixteenth
failure a head that is no CLAIM leaves the queue, reported DROPPED. A collision of a CLAIM whose plan has
ended removes it. A collision leaves the receiver with the bytes whole so far, a stop bit's byte kept with
the framing-fault mark; a line fault leaves it DISCARDING. BACKOFF_EXPIRED clears the head's backoff count
alone (R49, R56, R59, R60, R61, R63; the commands' meaning is logs 1 and 19's). -/
def Obligations.FailedAttemptBacksOff : Prop :=
  ∀ (s : State) (e : TxEntry) (rest : List TxEntry), s.pins.rstLow = false →
    s.line.enabled = true → s.txq = e :: rest →
    let bits := frameBits (s.frameOf e)
    let fails := fun (c : Instr) =>
      (∃ bit sent, c = .attemptCollision bit ∧ e.phase = .sending ∧ bits[bit]? = some sent ∧
        (e.ended = true → sent = false)) ∨
      (c = .lineHeld ∧ e.phase = .waiting)
    (∀ c, fails c → s.line.attempt + 1 < 16 →
      ∃ t, exec c s = .next t ∧ t.txq = { e with phase := .waiting } :: rest ∧
        t.line.attempt = s.line.attempt + 1 ∧
        t.line.backoff = 24 + (s.cw 0 + 1) * 16 + s.line.attempt * 32 ∧
        (c = .lineHeld → t.line.holdCount = 0 ∧ t.line.rx = s.line.rx) ∧ t.plans = s.plans ∧
        t.trays = s.trays ∧ t.rep = s.rep ∧ t.loop = s.loop) ∧
    (∀ c, fails c → 16 ≤ s.line.attempt + 1 → e.kind.isClaim = false →
      s.table.station ≠ .leaving →
      ∃ t, exec c s = .next t ∧ t.txq = rest ∧ t.line.attempt = 0 ∧ t.line.backoff = 0 ∧
        t.rep = (s.queueReport (.lineDropped e.kind.code e.tray)).rep ∧ t.plans = s.plans ∧
        t.trays = s.trays ∧ t.loop = s.loop) ∧
    (∀ bit sent, e.phase = .sending → bits[bit]? = some sent →
      ∃ t, exec (.attemptCollision bit) s = .next t ∧
        (s.table.station ≠ .leaving → sent = true → t.line.rx = .receiving ∧
          t.line.rxBuf = (frameBytes (s.frameOf e)).take
            (bit / 10 + if bit % 10 = 9 then 1 else 0) ∧
          t.line.rxFault = decide (bit % 10 = 9) ∧
          (e.ended = true → t.txq = rest ∧ t.line.attempt = 0 ∧ t.line.backoff = 0 ∧
            t.plans = s.plans ∧ t.trays = s.trays ∧ t.rep = s.rep)) ∧
        (sent = false → t.line.rx = .discarding ∧ t.line.rxBuf = [] ∧
          t.line.rxFault = false)) ∧
    (e.phase = .waiting →
      exec .backoffExpired s = .next { s with line := { s.line with backoff := 0 } })

/-- A frame that completes leaves the queue, its counts cleared; a CLAIM makes its TENTATIVE plan CLAIMED, no
other own frame changes a record or plan, and a CLAIM of an ended plan is followed by a RELEASE (R31, R56,
R62, R69; that the receiver is HUNTING at the completion itself is log 19's). -/
def Obligations.CompletedFrameLeavesQueue : Prop :=
  ∀ (s : State) (e : TxEntry) (rest : List TxEntry), s.pins.rstLow = false →
    s.line.enabled = true → s.txq = e :: rest → e.phase = .sending →
    s.table.station ≠ .leaving →
    (e.ended = false →
      ∃ t, exec .frameTxComplete s = .next t ∧ t.txq = rest ∧ t.line.attempt = 0 ∧
        t.line.backoff = 0 ∧ t.line.holdCount = 0 ∧ t.line.rx = .hunting ∧ t.trays = s.trays ∧
        t.rep = s.rep ∧ (e.plan = none → t.plans = s.plans) ∧
        ∀ ref sl p, e.plan = some ref → s.slotOf? ref.lane ref.tag = some sl →
          s.plan ref.lane sl = some p → t.plan ref.lane sl =
            some (if p.state = .tentative then { p with state := .claimed } else p)) ∧
    (e.ended = true → rest.length < 8 →
      (∀ q ∈ rest, q.kind = .release → q.tray ≠ e.tray) →
      ∃ t, exec .frameTxComplete s = .next t ∧
        t.txq = rest ++ [plainEntry .release e.tray e.span] ∧ t.trays = s.trays ∧
        t.plans = s.plans ∧ t.rep = s.rep)

/-- An abandoned head leaves the queue, the attempt and backoff counts cleared: a frame that is no CLAIM is
reported DROPPED, a CLAIM is not reported. A CLAIM whose plan has ended ends nothing more; the TENTATIVE plan
of another ends by withdrawal, its slot and trigger free, its OWN records OPEN, no miss counted and, as its
lane's only plan, nothing else in the queue moved. On a station LEAVING, where no plan is TENTATIVE, stated
for a queue that does not become empty, and for a live plan where the Planner does not plan anew (R33, R63,
R133, R164; log 1 for the command's meaning). -/
def Obligations.AbandonedHeadLeavesQueue : Prop :=
  ∀ (s : State) (e : TxEntry) (rest : List TxEntry), s.pins.rstLow = false →
    s.line.enabled = true → s.txq = e :: rest →
    (s.table.station = .leaving → rest ≠ []) →
    (e.kind.isClaim = false →
      ∃ t, exec .entryAbandoned s = .next t ∧ t.txq = rest ∧
        t.rep = (s.queueReport (.lineDropped e.kind.code e.tray)).rep ∧ t.line.attempt = 0 ∧
        t.line.backoff = 0 ∧ t.trays = s.trays ∧ t.plans = s.plans) ∧
    (∀ ref, e.kind.isClaim = true → e.plan = some ref →
      (e.ended = true ∨ s.slotOf? ref.lane ref.tag = none) →
      ∃ t, exec .entryAbandoned s = .next t ∧ t.txq = rest ∧ t.rep = s.rep ∧
        t.line.attempt = 0 ∧ t.line.backoff = 0 ∧ t.trays = s.trays ∧ t.plans = s.plans) ∧
    (∀ ref sl p, e.kind.isClaim = true → e.ended = false → e.plan = some ref →
      s.slotOf? ref.lane ref.tag = some sl → s.plan ref.lane sl = some p →
      p.state = .tentative → s.mayPlan = false → s.table.station ≠ .leaving →
      ∃ t, exec .entryAbandoned s = .next t ∧ t.plan ref.lane sl = none ∧
        t.trig.get ref.lane sl = none ∧ t.loop = s.loop ∧
        (∀ j ∈ s.namedTrays p.target p.span, ∀ q, s.tray? j = some q → q.cond = .own →
          q.plan = some ref → t.tray? j = some
            { cond := .opened, seen := q.seen, holder := none, partner := none, plan := none }) ∧
        (s.plan ref.lane (otherSlot sl) = none → (∀ q ∈ rest, q.plan ≠ some ref) →
          t.txq = rest ∧ t.line.attempt = 0 ∧ t.line.backoff = 0 ∧ t.rep = s.rep ∧
          (t.lane ref.lane).parcels.map Parcel.misses =
            (s.lane ref.lane).parcels.map Parcel.misses))

/-! ## Lanes -/

/-- An entry eye blocked edge that is taken gives a record with the next tag where there is room; without room
the lane is BLOCKED for OVERFILL, and touching the parcel before it, for TOUCHING, the tag taken all the
same. A TOUCHING block names the parcel before while that is still QUEUED, and the new record if there is
one, and reports REJECTED for the parcel before when it is named and then for the new one. An edge not taken
changes the eye's level alone. The trays, the plans, the transmit queue and the loop
stay in every case (R85, R86, R99; REJECTED ahead of LANE is log 9's). -/
def Obligations.EntryEdgeCreatesRecordOrBlocks : Prop :=
  ∀ (s : State) (l : Lane), s.pins.rstLow = false → s.atRest = true →
    s.pins.entryEye.get l = false →
    let c := s.lane l
    (s.takesEntry l = false → exec (.entryEyeBlocked l) s = .next
      { s with pins := { s.pins with entryEye := s.pins.entryEye.set l true } }) ∧
    (s.takesEntry l = true → s.touches l = false → s.hasRoom l = true →
      ∃ t, exec (.entryEyeBlocked l) s = .next t ∧
        t.lanes = s.lanes.set l { c with
          parcels := c.parcels ++ [Parcel.fresh c.tagCounter], tagCounter := c.tagCounter + 1
          measure := 0, gapTest := none } ∧
        t.pins = { s.pins with entryEye := s.pins.entryEye.set l true } ∧ t.rep = s.rep ∧
        t.trays = s.trays ∧ t.plans = s.plans ∧ t.txq = s.txq ∧ t.loop = s.loop) ∧
    (s.takesEntry l = true → s.touches l = false → s.hasRoom l = false →
      ∃ t, exec (.entryEyeBlocked l) s = .next t ∧ (t.lane l).state = .blocked ∧
        (t.lane l).reason = .overfill ∧ (t.lane l).removal = true ∧
        (t.lane l).parcels = c.parcels ∧ (t.lane l).tagCounter = c.tagCounter + 1 ∧
        t.rep = ((s.queueReport (.rejected l c.tagCounter .overfill)).queueReport
          (.lane l .blocked .overfill)).rep ∧ t.trays = s.trays ∧ t.plans = s.plans ∧
        t.txq = s.txq ∧ t.loop = s.loop) ∧
    (s.takesEntry l = true → s.touches l = true →
      ∃ t, exec (.entryEyeBlocked l) s = .next t ∧ (t.lane l).state = .blocked ∧
        (t.lane l).reason = .touching ∧ (t.lane l).removal = true ∧
        (t.lane l).parcels.length = c.parcels.length + (if s.hasRoom l then 1 else 0) ∧
        (t.lane l).tagCounter = c.tagCounter + 1 ∧ t.trays = s.trays ∧ t.plans = s.plans ∧
        t.txq = s.txq ∧ t.loop = s.loop ∧
        ∀ g, c.gapTest = some g →
          let held := (c.parcel? g).map Parcel.place = some .queued
          let room := s.hasRoom l = true
          let listed := c.parcels ++ (if room then [Parcel.fresh c.tagCounter] else [])
          let s1 := if held then s.queueReport (.rejected l g .touching) else s
          (t.lane l).parcels = listed.map (fun q =>
            if ((held ∧ q.tag = g) ∨ (room ∧ q.tag = c.tagCounter)) ∧ q.named = none then
              { q with named := some .touching }
            else q) ∧
          t.rep = ((s1.queueReport (.rejected l c.tagCounter .touching)).queueReport
            (.lane l .blocked .touching)).rep)

/-- The entry eye clear edge ends a measurement by its count: below 100 the record goes as DEBRIS; up to the
two-tray limit it is QUEUED with that length and the span the single-tray limit gives; above it the block
for OVERLENGTH names the record, a RUNNING or PAUSED lane becomes BLOCKED, and one BLOCKED already keeps
its state and reason. Without a measurement the edge changes the eye alone. A measurement that reaches 3000
ends in that block at MEASUREMENT_LIMIT, its record still MEASURING. At a good length an early scan held goes
to that record and leaves the slot empty, stated where every other QUEUED record has a scan. A scan of a
DEBRIS record is returned after its report: to the oldest candidate, to an empty slot, or in place of the
scan held there, which is reported ORPHAN (R87, R88, R99, R111, R112; REJECTED ahead of LANE is log 9's, that
the command means the count of 3000 log 1's, the reason kept in BLOCKED log 14's, and that a slot which finds no
QUEUED record without a scan keeps its own log 41's). -/
def Obligations.MeasurementEndsByLengthOrLimit : Prop :=
  ∀ (s : State) (l : Lane), s.pins.rstLow = false → s.atRest = true →
    let c := s.lane l
    (∀ r, c.measuring? = some r →
      (c.measure < 100 →
        ∃ t, exec (.entryEyeClear l) s = .next t ∧
          (t.lane l).parcels.map Parcel.tag =
            (c.parcels.filter fun q => q.tag != r.tag).map Parcel.tag ∧
          (t.lane l).state = c.state ∧
          (s.queueReport (.rejected l r.tag .debris)).rep.fifo <+: t.rep.fifo ∧
          t.trays = s.trays ∧ t.plans = s.plans ∧ t.txq = s.txq ∧ t.loop = s.loop ∧
          ((∀ q ∈ c.parcels, q.tag = r.tag → q = r) →
           let left := c.parcels.filter fun q => q.tag != r.tag
           let debris := s.queueReport (.rejected l r.tag .debris)
           (r.scan = none → (t.lane l).parcels = left ∧ (t.lane l).early = c.early ∧
             t.rep = debris.rep) ∧
           ∀ sc, r.scan = some sc →
             ((∀ q ∈ left, q.isCandidate = false) → (t.lane l).parcels = left ∧
               (t.lane l).early = some sc ∧
               (c.early = none → t.rep = debris.rep) ∧
               ∀ old, c.early = some old → t.rep = (debris.queueReport (.orphan l old.id)).rep) ∧
             ∀ older q younger, left = older ++ q :: younger →
               (∀ u ∈ older, u.isCandidate = false) → q.isCandidate = true →
               (∀ u ∈ older ++ younger, u.tag ≠ q.tag) →
               (t.lane l).parcels = older ++ { q with scan := some sc } :: younger ∧
                 (t.lane l).early = c.early ∧ t.rep = debris.rep)) ∧
      (100 ≤ c.measure → c.measure ≤ s.cfgDouble l →
        ∃ t, exec (.entryEyeClear l) s = .next t ∧
          (∃ q ∈ (t.lane l).parcels, q.tag = r.tag ∧ q.length = some c.measure ∧
            q.span = some (if c.measure ≤ s.cfgSingle l then .one else .two) ∧
            q.place = .queued) ∧
          (t.lane l).parcels.length = c.parcels.length ∧ (t.lane l).state = c.state ∧
          (t.lane l).gapCount = 0 ∧ t.rep = s.rep ∧ t.trays = s.trays ∧ t.plans = s.plans ∧
          t.txq = s.txq ∧ t.loop = s.loop ∧
          (c.early = none → (t.lane l).early = none ∧
            (t.lane l).parcels.map Parcel.scan = c.parcels.map Parcel.scan) ∧
          ∀ sc, c.early = some sc →
            (r.scan = none →
              (∀ q ∈ c.parcels, q.tag ≠ r.tag → q.place = .queued → q.scan ≠ none) →
              (t.lane l).early = none ∧ ∃ q ∈ (t.lane l).parcels, q.tag = r.tag ∧
                q.length = some c.measure ∧ q.place = .queued ∧ q.scan = some sc) ∧
            ((∀ q ∈ c.parcels, q.tag = r.tag ∨ q.place = .queued → q.scan ≠ none) →
              (t.lane l).early = some sc ∧
                (t.lane l).parcels.map Parcel.scan = c.parcels.map Parcel.scan)) ∧
      (∀ i, (i = .measurementLimit l ∨
          (i = .entryEyeClear l ∧ 100 ≤ c.measure ∧ s.cfgDouble l < c.measure)) →
        (c.state = .running ∨ c.state = .paused ∨ c.state = .blocked) →
        ∃ t, exec i s = .next t ∧ (t.lane l).state = .blocked ∧
          (t.lane l).reason = (if c.state = .blocked then c.reason else .overlength) ∧
          (t.lane l).removal = true ∧ (t.lane l).feed = false ∧ t.outs.drvEn.get l = false ∧
          (i = .measurementLimit l → (t.lane l).measure = 3000) ∧
          (∃ q ∈ (t.lane l).parcels, q.tag = r.tag ∧ q.place = .measuring ∧
            q.length = r.length ∧ q.named = some .overlength) ∧
          t.rep = ((s.queueReport (.rejected l r.tag .overlength)).queueReport
            (.lane l .blocked .overlength)).rep ∧
          t.lane (otherLane l) = s.lane (otherLane l) ∧ t.trays = s.trays ∧
          t.plans = s.plans ∧ t.txq = s.txq ∧ t.loop = s.loop)) ∧
    (c.measuring? = none →
      exec (.entryEyeClear l) s = .next
        { s with pins := { s.pins with entryEye := s.pins.entryEye.set l false } })

/-- The plain counters of a lane move alone: a belt count moves the measurement count and the armed gap count
while the entry belt runs and nothing while it stands; the gap reached disarms the gap test; a merge eye
blocked during a launch sets merge-seen; BUTTON_FILTER_ELAPSED fills the filter with 20 ms of release, the
button's level released with it (R86, R87, R94, R101; the commands' meaning is logs 1, 16 and 33's). -/
def Obligations.LaneCountersMoveAlone : Prop :=
  ∀ (s : State) (l : Lane), s.pins.rstLow = false →
    let c := s.lane l
    (s.entryBeltRuns l = true → c.measuring?.isSome = true → c.gapTest = none →
      c.measure + 1 < 3000 →
      exec (.beltEncoderCount l) s = .next
        { s with lanes := s.lanes.set l { c with measure := c.measure + 1 } }) ∧
    (s.entryBeltRuns l = true → c.measuring? = none → c.gapTest.isSome = true →
      exec (.beltEncoderCount l) s = .next
        { s with lanes := s.lanes.set l { c with
            gapCount := c.gapCount + 1
            gapTest := if s.cfgMinGap l ≤ c.gapCount + 1 then none else c.gapTest } }) ∧
    (s.entryBeltRuns l = false → exec (.beltEncoderCount l) s = .next s) ∧
    (c.gapTest.isSome = true →
      exec (.gapCountReached l) s = .next
        { s with lanes := s.lanes.set l { c with gapCount := s.cfgMinGap l, gapTest := none } }) ∧
    (∀ e, c.launch = some e → e.aborted = false →
      exec (.mergeEyeBlocked l) s = .next { s with
        pins := { s.pins with mergeEye := s.pins.mergeEye.set l true }
        lanes := s.lanes.set l { c with launch := some { e with mergeSeen := true } } }) ∧
    exec (.buttonFilterElapsed l) s = .next { s with
      pins := { s.pins with button := s.pins.button.set l false }
      lanes := s.lanes.set l { c with buttonFilter := 20 } }

/-- The hold eye blocked edge of a running feed takes the front QUEUED record to HOLDING, or on to
TRANSFERRING where a transfer begins in the event (R91): its destination is resolved from its scan, NO_READ
and MULTI_READ and chutes 0 and 255 giving the no-read chute, and its hold time is the present tick (log
21). The launch eye blocked edge completes a transfer: the TRANSFERRING record becomes READY and the timer
idle. Without a feed, and without a transfer, they change nothing (R90, R91, R113). -/
def Obligations.HoldAndLaunchEyesMoveParcels : Prop :=
  ∀ (s : State) (l : Lane), s.pins.rstLow = false →
    (∀ r, s.atRest = true → (s.lane l).feed = true → (s.lane l).at? .queued = some r →
      ∃ t, exec (.holdEyeBlocked l) s = .next t ∧
        (∃ q ∈ (t.lane l).parcels, q.tag = r.tag ∧ q.scan = r.scan ∧ q.holdTick = some s.tick ∧
          (q.place = .holding ∨ q.place = .transferring) ∧
          q.dest = some (match r.scan with
            | none => { chute := s.cfgNoRead, noRead := true }
            | some sc =>
              if sc.noRead = true ∨ sc.multiRead = true ∨ sc.chute = 0 ∨ sc.chute = 255 then
                { chute := s.cfgNoRead, noRead := true }
              else { chute := sc.chute, noRead := false })) ∧
        t.loop = s.loop ∧ t.doubt = s.doubt ∧ t.table = s.table) ∧
    ((s.lane l).feed = false → exec (.holdEyeBlocked l) s = .next s) ∧
    (∀ n r, (s.lane l).transfer = some n → (s.lane l).at? .transferring = some r →
      ∃ t, exec (.launchEyeBlocked l) s = .next t ∧ (t.lane l).transfer = none ∧
        (∃ q ∈ (t.lane l).parcels, q.tag = r.tag ∧ q.place = .ready ∧ q.dest = r.dest) ∧
        (t.lane l).state = (s.lane l).state ∧
        (t.lane l).parcels.length = (s.lane l).parcels.length ∧ t.trays = s.trays ∧
        t.plans = s.plans ∧ t.txq = s.txq ∧ t.rep = s.rep ∧ t.loop = s.loop) ∧
    ((s.lane l).transfer = none → exec (.launchEyeBlocked l) s = .next s)

/-- A transfer timeout and a merge timeout take the lane to FAULT: feed and transfer stopped, a launch
aborted, the removal flag set, and, where the Planner does not plan in the same event, no plan of the lane
left (R92, R97, R102; log 1 for the commands' meaning). -/
def Obligations.TimeoutsFaultTheLane : Prop :=
  ∀ (s : State) (l : Lane) (c : Instr) (reason : LaneReason), s.pins.rstLow = false →
    s.table.station ≠ .leaving →
    ((c = .transferTimeout l ∧ reason = .transferTimeout ∧ (s.lane l).transfer.isSome = true) ∨
      (c = .mergeTimeout l ∧ reason = .mergeTimeout ∧ (s.lane l).launchRuns = true)) →
    ∃ t, exec c s = .next t ∧ (t.lane l).state = .fault ∧ (t.lane l).reason = reason ∧
      (t.lane l).removal = true ∧ (t.lane l).feed = false ∧ (t.lane l).transfer = none ∧
      (t.lane l).launchRuns = false ∧ t.outs.drvHd.get l = false ∧ t.outs.drvLn.get l = false ∧
      t.outs.drvEn.get l = false ∧ t.outs.lampRemove.get l = true ∧ t.loop = s.loop ∧
      t.doubt = s.doubt ∧ t.table = s.table ∧
      (s.mayPlan = false → ∀ sl, t.plan l sl = none)

/-- The merge completion queues LOADED and INDUCTED, ends the plan in success with its trays PASSED, and frees
the launch place; the record leaves the list. The launch of an abandoned plan places no LOADED and changes no
tray or plan, its INDUCTED all the same queued; in LEAVING, with no other launch and nothing queued, it ends
LEAVING after that report. Stated for a station ONLINE or LEAVING with room for the frame, no lane offering
a parcel (R94, R95, R106, R117, R136, R165). -/
def Obligations.MergeCompletionInductsParcel : Prop :=
  ∀ (s : State) (l : Lane) (e : Launch) (r : Parcel),
    s.pins.rstLow = false → s.mapInUse = true →
    (s.lane l).launch = some e → e.mergeSeen = true → e.aborted = false →
    (s.lane l).at? .launching = some r → (∀ m, s.offered m = []) →
    let inducted := s.queueReport
      (.inducted l r.tag r.reportId e.tray r.chute e.span e.double)
    let freed := fun (t : State) =>
      t.rep = inducted.rep ∧ (t.lane l).launch = none ∧
        (∀ q ∈ (t.lane l).parcels, q.tag ≠ r.tag) ∧
        t.pins = { s.pins with mergeEye := s.pins.mergeEye.set l false } ∧ t.loop = s.loop ∧
        t.doubt = s.doubt ∧ t.table = s.table
    (∀ sl p, r.planSlot = some sl → s.plan l sl = some p → s.line.enabled = true →
      s.hasTwin (plainEntry (.loaded r.chute e.double) e.tray e.span) = false →
      s.txq.length < 8 →
      ∃ t, exec (.mergeEyeClear l) s = .next t ∧ freed t ∧
        t.txq = s.txq ++ [plainEntry (.loaded r.chute e.double) e.tray e.span] ∧
        t.plan l sl = none ∧
        ∀ k ∈ s.namedTrays p.target p.span, ∀ q, s.tray? k = some q → q.cond = .own →
          q.plan = some { lane := l, tag := p.tag } →
          ∃ q', t.tray? k = some q' ∧ q'.cond = .passed ∧ q'.plan = none) ∧
    (r.planSlot = none →
      ((s.table.station = .online ∨ s.txq ≠ [] ∨ (s.lane (otherLane l)).launchRuns = true) →
        ∃ t, exec (.mergeEyeClear l) s = .next t ∧ freed t ∧ t.txq = s.txq ∧
          t.trays = s.trays ∧ t.plans = s.plans) ∧
      (s.table.station = .leaving → s.txq = [] → (s.lane (otherLane l)).launchRuns = false →
        ∃ t, exec (.mergeEyeClear l) s = .next t ∧
          t.table = { s.table with station := .configured } ∧ t.txq = [] ∧
          t.line.enabled = false ∧ inducted.rep.fifo <+: t.rep.fifo))

/-- A press, taken when the button has read released for 20 ms, pauses a RUNNING lane, runs a PAUSED one, and
in BLOCKED deletes the named records and runs the lane if the entry eye reads clear or sees the lane's own
measurement; in STOPPED and FAULT, and sooner than 20 ms, the lane state stays (R101; that the press sets the
filter to 0 is log 16's). -/
def Obligations.ButtonPressActsByLaneState : Prop :=
  ∀ (s : State) (l : Lane), s.pins.rstLow = false →
    let c := s.lane l
    let acts := 20 ≤ c.buttonFilter
    let clear := s.pins.entryEye.get l = false ∨ c.measuring?.isSome = true
    ∃ t, exec (.buttonPress l) s = .next t ∧ (t.lane l).buttonFilter = 0 ∧
      t.pins = { s.pins with button := s.pins.button.set l true } ∧
      (acts → c.state = .running → (t.lane l).state = .paused ∧ (t.lane l).reason = .button ∧
        t.rep = (s.queueReport (.lane l .paused .button)).rep) ∧
      (acts → c.state = .paused → (t.lane l).state = .running ∧ (t.lane l).reason = .button ∧
        (t.lane l).removal = false ∧ (t.pace.lanes.get l).index = 15 ∧
        (t.pace.lanes.get l).valid = false ∧
        t.rep = (s.queueReport (.lane l .running .button)).rep) ∧
      (acts → c.state = .blocked → clear → (t.lane l).state = .running ∧
        (t.lane l).removal = false ∧ (t.lane l).gapTest = none ∧
        (t.lane l).parcels.map Parcel.tag =
          (c.parcels.filter fun q => q.named.isNone).map Parcel.tag ∧
        t.rep = (s.queueReport (.lane l .running .button)).rep) ∧
      (¬ acts ∨ c.state = .stopped ∨ c.state = .fault ∨ (c.state = .blocked ∧ ¬ clear) →
        (t.lane l).state = c.state ∧ t.rep = s.rep) ∧
      t.trays = s.trays ∧ t.plans = s.plans ∧ t.txq = s.txq ∧ t.loop = s.loop ∧
      (t.lane l).early = c.early

/-! ## Local port -/

/-- A falling edge of SCS awaits a transaction byte, the rising edge idles the port; the transaction byte
makes the period PUT, TAKE or STATUS and any other value makes it IGNORING with COMMAND_ERROR; it counts
once a period, and SDO shifts 0x00. In PUT a byte enters the tail of an inbound FIFO of fewer than 64 bytes
and is dropped at a full one with COMMAND_ERROR. In TAKE a slot sends the head of the report FIFO and
removes it; an empty FIFO and a busy station send 0x00 and remove nothing. In STATUS a slot sends the status
byte and changes no flag (R146, R147, R153, R154; an SCS that reads low already is log 24's, and that a
STATUS slot is the command TAKE_BYTE is log 23's). -/
def Obligations.PortPeriodsAndSlotsMoveBytes : Prop :=
  ∀ s : State, s.pins.rstLow = false →
    (s.pins.scsLow = false → exec .selectPeriodStart s = .next { s with
      pins := { s.pins with scsLow := true }, port := { s.port with select := .awaiting } }) ∧
    (s.pins.scsLow = true → exec .selectPeriodStart s = .next s) ∧
    exec .selectPeriodEnd s = .next { s with
      pins := { s.pins with scsLow := false }, port := { s.port with select := .idle } } ∧
    (∀ byte, s.port.select ≠ .awaiting → exec (.transactionByte byte) s = .next s) ∧
    (s.port.select = .awaiting →
      exec (.transactionByte 0xA0) s = .next { s with
        port := { s.port with select := .put, sdo := 0 } } ∧
      exec (.transactionByte 0xA1) s = .next { s with
        port := { s.port with select := .take, sdo := 0 } } ∧
      exec (.transactionByte 0xA2) s = .next { s with
        port := { s.port with select := .status, sdo := 0 } } ∧
      ∀ byte, byte ≠ 0xA0 → byte ≠ 0xA1 → byte ≠ 0xA2 →
        ∃ o, exec (.transactionByte byte) s = .next { s with
          port := { s.port with select := .ignoring, sdo := 0, commandError := true }
          outs := o } ∧
          (bitAt (s.cw 47) 1 = true → o.attnLow = true)) ∧
    (∀ byte : Byte, s.port.select = .put →
      (s.port.inbound.length < 64 → ∃ o, exec (.putByte byte) s = .next { s with
        port := { s.port with inbound := s.port.inbound ++ [byte], sdo := 0 }, outs := o }) ∧
      (64 ≤ s.port.inbound.length → ∃ o, exec (.putByte byte) s = .next { s with
        port := { s.port with commandError := true, sdo := 0 }, outs := o })) ∧
    (∀ b rest, s.port.select = .take → s.table.station ≠ .applying → s.rep.fifo = b :: rest →
      ∃ o, exec .takeByte s = .next { s with
        port := { s.port with sdo := b }, rep := { s.rep with fifo := rest }, outs := o } ∧
        (rest = [] → s.port.commandError = false → s.rep.lost = false → o.attnLow = false)) ∧
    (s.port.select = .take → (s.table.station = .applying ∨ s.rep.fifo = []) →
      ∃ o, exec .takeByte s = .next { s with port := { s.port with sdo := 0 }, outs := o }) ∧
    (s.port.select = .status → ∃ b : Byte,
      exec .takeByte s = .next { s with port := { s.port with sdo := b } } ∧
      (b.getLsbD 0 = decide (s.port.inbound.length + 16 ≤ 64)) ∧
      (b.getLsbD 1 = !s.rep.fifo.isEmpty) ∧ b.getLsbD 2 = s.port.commandError ∧
      b.getLsbD 3 = s.rep.lost ∧ (b.getLsbD 4 = decide (s.table.station = .applying)) ∧
      (b.getLsbD 5 = decide (s.table.station = .online)) ∧
      (b.getLsbD 6 = decide (s.loop.lock ≠ .unlocked)) ∧ b.getLsbD 7 = false)

/-- Every message command is its message taken, the inbound FIFO left as it is (log 34, DESIGN CHOICE); while
the station is APPLYING each but RESET is discarded, with COMMAND_ERROR and nothing else (R149). -/
def Obligations.BusyStationDiscardsMessages : Prop :=
  ∀ (c : Instr) (m : Message) (s : State), messageOf c = some m → s.pins.rstLow = false →
    exec c s = .next (s.takeMessage m) ∧
    (s.table.station = .applying → m ≠ .reset →
      ∃ o, exec c s = .next { s with port := { s.port with commandError := true }, outs := o })

/-! ## Messages to the lanes -/

/-- START runs a STOPPED lane of a station ONLINE, PAUSE pauses a RUNNING lane, RESUME runs a PAUSED lane and
takes a faulted one to PAUSED with its list, launch entry and early scan deleted and its removal flag kept;
each reports its lane and changes no tray, plan or frame. A lane message that names no lane, a START of a
lane not STOPPED or off ONLINE, a PAUSE in STOPPED, BLOCKED or FAULT, and a RESUME in STOPPED, RUNNING or
BLOCKED are refused: COMMAND_ERROR is set and nothing else changes but the output lines (R102, R105, R108,
R141). -/
def Obligations.LaneMessagesMoveLaneStateOrAreRefused : Prop :=
  ∀ (s : State) (b : Byte), s.pins.rstLow = false → s.table.station ≠ .applying →
    (∀ l, laneOfByte b = some l →
      (s.table.station = .online → (s.lane l).state = .stopped →
        ∃ t, exec (.start b) s = .next t ∧ (t.lane l).state = .running ∧
          (t.lane l).reason = .command ∧ (t.lane l).removal = false ∧
          (t.pace.lanes.get l).index = 15 ∧ (t.pace.lanes.get l).valid = false ∧
          t.outs.drvEn.get l = true ∧ t.rep = (s.queueReport (.lane l .running .command)).rep ∧
          t.trays = s.trays ∧ t.plans = s.plans ∧ t.txq = s.txq ∧ t.loop = s.loop) ∧
      ((s.lane l).state = .running →
        ∃ t, exec (.pause b) s = .next t ∧ (t.lane l).state = .paused ∧
          (t.lane l).reason = .command ∧ (t.lane l).removal = (s.lane l).removal ∧
          t.outs.drvEn.get l = false ∧ t.rep = (s.queueReport (.lane l .paused .command)).rep ∧
          t.trays = s.trays ∧ t.plans = s.plans ∧ t.txq = s.txq ∧ t.loop = s.loop) ∧
      ((s.lane l).state = .paused →
        exec (.pause b) s = .next s ∧
        ∃ t, exec (.resume b) s = .next t ∧ (t.lane l).state = .running ∧
          (t.lane l).reason = .command ∧ (t.lane l).removal = false ∧
          (t.pace.lanes.get l).index = 15 ∧
          t.rep = (s.queueReport (.lane l .running .command)).rep ∧ t.trays = s.trays ∧
          t.plans = s.plans ∧ t.txq = s.txq ∧ t.loop = s.loop) ∧
      ((s.lane l).state = .fault →
        ∃ t, exec (.resume b) s = .next t ∧ (t.lane l).state = .paused ∧
          (t.lane l).reason = .command ∧ (t.lane l).removal = (s.lane l).removal ∧
          (t.lane l).parcels = [] ∧ (t.lane l).launch = none ∧ (t.lane l).gapTest = none ∧
          (t.lane l).early = none ∧ t.rep = (s.queueReport (.lane l .paused .command)).rep ∧
          t.trays = s.trays ∧ t.plans = s.plans ∧ t.txq = s.txq ∧ t.loop = s.loop)) ∧
    ∀ c, ((laneOfByte b = none ∧ (c = .start b ∨ c = .stop b ∨ c = .pause b ∨ c = .resume b ∨
          ∃ id chute flags, c = .scan b id chute flags)) ∨
        ∃ l, laneOfByte b = some l ∧
          ((c = .start b ∧ ((s.lane l).state ≠ .stopped ∨ s.table.station ≠ .online)) ∨
            (c = .pause b ∧ (s.lane l).state ≠ .running ∧ (s.lane l).state ≠ .paused) ∨
            (c = .resume b ∧ (s.lane l).state ≠ .paused ∧ (s.lane l).state ≠ .fault))) →
      ∃ o, exec c s = .next { s with port := { s.port with commandError := true }, outs := o } ∧
        (bitAt (s.cw 47) 1 = true → o.attnLow = true)

/-- STOP stops the lane in every lane state: feed, transfer, gap test and early scan are cleared, every record
left is LAUNCHING by a launch that runs on, and the removal flag is set where a record was deleted. A launch
that is not aborted runs on: its entry stays as it is, every LAUNCHING record stays in the list, whole where
no plan of a parcel at or before it is still to be withdrawn, and so does its LAUNCHED plan. A lane that was
not STOPPED reports LANE with reason COMMAND, one STOPPED already keeps its reason and reports nothing (stated
for a queue with room for its plans' RELEASEs). Where the Planner does not plan anew in the event every plan
of the lane left is LAUNCHED and the other lane keeps its state, reason and removal flag. A station LEAVING,
whose plans are all LAUNCHED, is included (R105, R134, R137; that a discarded MEASURING record counts as
deleted is log 26's). -/
def Obligations.StopEmptiesLaneButFinishingLaunch : Prop :=
  ∀ (s : State) (b : Byte) (l : Lane), s.pins.rstLow = false → s.table.station ≠ .applying →
    (s.table.station = .leaving → ∀ m sl p, s.plan m sl = some p → p.state = .launched) →
    laneOfByte b = some l →
    ∃ t, exec (.stop b) s = .next t ∧ (t.lane l).state = .stopped ∧ (t.lane l).feed = false ∧
      (t.lane l).transfer = none ∧ (t.lane l).gapTest = none ∧ (t.lane l).early = none ∧
      (∀ q ∈ (t.lane l).parcels, q.place = .launching ∧ (s.lane l).launchRuns = true) ∧
      ((s.lane l).launchRuns = false → (t.lane l).launch = none) ∧
      ((s.lane l).launchRuns = true →
        (t.lane l).launch = (s.lane l).launch ∧
        (t.lane l).parcels.map Parcel.tag =
          ((s.lane l).parcels.filter fun q => q.place == .launching).map Parcel.tag ∧
        ∀ q ∈ (s.lane l).parcels, q.place = .launching →
          (∃ q' ∈ (t.lane l).parcels, q' = { q with planSlot := q'.planSlot }) ∧
          (s.txq.length + 2 ≤ 8 → (∀ sl p, s.plan l sl = some p → p.state ≠ .launched →
              (s.lane l).rank q.tag < (s.lane l).rank p.tag) →
            q ∈ (t.lane l).parcels ∧ ∀ sl p, s.plan l sl = some p → p.state = .launched →
              p.tag = q.tag → t.plan l sl = some p)) ∧
      (t.lane l).removal = ((s.lane l).removal ||
        decide ((t.lane l).parcels.length < (s.lane l).parcels.length)) ∧
      (t.lane l).reason = (if (s.lane l).state = .stopped then (s.lane l).reason else .command) ∧
      (s.txq.length + 2 ≤ 8 → s.rep.fifo.length + 4 ≤ 128 → (s.lane l).state ≠ .stopped →
        s.rep.fifo ++ (Report.lane l .stopped .command).bytes <+: t.rep.fifo) ∧
      (s.mayPlan = false →
        (∀ sl p, t.plan l sl = some p → p.state = .launched) ∧
        (t.lane (otherLane l)).state = (s.lane (otherLane l)).state ∧
        (t.lane (otherLane l)).reason = (s.lane (otherLane l)).reason ∧
        (t.lane (otherLane l)).removal = (s.lane (otherLane l)).removal ∧
        (s.txq.length + 2 ≤ 8 → (s.lane l).state = .stopped → t.rep = s.rep)) ∧
      t.loop = s.loop ∧ t.doubt = s.doubt ∧ t.table = s.table

/-- A SCAN is refused with an ORPHAN report in STOPPED and FAULT and while the early slot is held; otherwise it
goes to the oldest MEASURING or QUEUED record without a scan, or, if there is none, to the empty slot. The
flags carry NO_READ in bit 0 and MULTI_READ in bit 1 (R108, R109, R110). -/
def Obligations.ScanIsPlacedOnce : Prop :=
  ∀ (s : State) (b : Byte) (l : Lane) (id : ScanId) (chute flags : Byte),
    s.pins.rstLow = false → s.table.station ≠ .applying → laneOfByte b = some l →
    let c := s.lane l
    let sc : Scan := { id := id, chute := chute, noRead := flags.getLsbD 0
                       multiRead := flags.getLsbD 1 }
    let off := c.state = .stopped ∨ c.state = .fault
    (off ∨ c.early.isSome = true →
      ∃ o, exec (.scan b id chute flags) s = .next { s with
        rep := (s.queueReport (.orphan l id)).rep, outs := o }) ∧
    (¬ off → c.early = none → (∀ r ∈ c.parcels, r.isCandidate = false) →
      ∃ o, exec (.scan b id chute flags) s = .next { s with
        lanes := s.lanes.set l { c with early := some sc }, outs := o }) ∧
    (∀ older r younger, ¬ off → c.early = none → c.parcels = older ++ r :: younger →
      (∀ q ∈ older, q.isCandidate = false) → r.isCandidate = true →
      (∀ q ∈ older ++ younger, q.tag ≠ r.tag) →
      ∃ o, exec (.scan b id chute flags) s = .next { s with
        lanes := s.lanes.set l { c with
          parcels := older ++ { r with scan := some sc } :: younger }, outs := o })

/-! ## Configuration and station states -/

/-- SET_POINTER sets the pointer to an index of 0..47 and refuses any other; LOAD_WORD writes the working word
at the pointer; LOAD_WORD_NEXT also moves the pointer on, from 47 back to 0. The committed copy is not
touched. APPLY in UNCONFIGURED or CONFIGURED takes a copy of the working words and enters APPLYING; in
ONLINE and LEAVING it is refused with COMMAND_ERROR and APPLY_RESULT WRONG_STATE (R158, R159). -/
def Obligations.ConfigurationMessagesWriteAndApply : Prop :=
  ∀ s : State, s.pins.rstLow = false →
    (s.table.station ≠ .applying → s.table.pointer < 48 →
      (∀ i : Byte, i.toNat < 48 → exec (.setPointer i) s = .next
        { s with table := { s.table with pointer := i.toNat } }) ∧
      (∀ i : Byte, 48 ≤ i.toNat → ∃ o, exec (.setPointer i) s = .next
        { s with port := { s.port with commandError := true }, outs := o }) ∧
      (∀ v, ∃ w, exec (.loadWord v) s = .next { s with table := { s.table with working := w } } ∧
        ∀ j, wordAt w j = if j = s.table.pointer then v else wordAt s.table.working j) ∧
      (∀ v, ∃ w, exec (.loadWordNext v) s = .next
        { s with table := { s.table with
            working := w
            pointer := if s.table.pointer = 47 then 0 else s.table.pointer + 1 } } ∧
        ∀ j, wordAt w j = if j = s.table.pointer then v else wordAt s.table.working j)) ∧
    (s.table.station = .unconfigured ∨ s.table.station = .configured →
      ∃ o, exec .apply s = .next { s with
        table := { s.table with
          station := .applying
          applying := some
            { copy := s.table.working
              fromConfigured := decide (s.table.station = .configured), timer := 0 } }
        outs := o }) ∧
    (s.table.station = .online ∨ s.table.station = .leaving →
      ∃ o, exec .apply s = .next { s with
        port := { s.port with commandError := true }
        rep := (s.queueReport (.applyResult .wrongState)).rep, outs := o })

/-- An APPLY completes by its validation (log 1: the command means that its 2 ms are over). OK: the copy is
committed, the station is CONFIGURED, the loop UNLOCKED, the map one LEARNING record a tray, the doubt window
0, both pace indices as they were; a loop in lock loses it with its effects, LOST reported, the cadence not
valid (log 31), and OK is reported last. Otherwise: the committed copy, loop and map stay, the station
returns where it came from, and the result with its word is reported. The reports in lock are stated for a
station with no plan, as an APPLYING one has (R7, R8, R141, R160, R161, R162). -/
def Obligations.ApplyCompletesByValidation : Prop :=
  ∀ (s : State) (a : Applying), s.pins.rstLow = false → s.table.station = .applying →
    s.table.applying = some a →
    (validate a.copy = .ok →
      ∃ t, exec .applyComplete s = .next t ∧
        t.table = { s.table with
          committed := a.copy, station := .configured, applying := none } ∧
        t.trays = List.replicate (wordAt a.copy 2).toNat TrayRec.fresh ∧ t.doubt = 0 ∧
        t.port = s.port ∧
        (∀ l, (t.pace.lanes.get l).index = (s.pace.lanes.get l).index) ∧
        (s.loop.lock = .unlocked →
          t.loop = s.loop ∧ t.rep = (s.queueReport (.applyResult .ok)).rep) ∧
        (s.loop.lock ≠ .unlocked →
          t.loop = { s.loop with
            lock := .unlocked, S := 0, backlog := 0, frontier := 0, travel := 0, missing := 0 } ∧
          t.trig = .all none ∧ t.aims = .all none ∧
          (∀ l, (t.pace.lanes.get l).valid = false ∧ (t.pace.lanes.get l).hyst = 0) ∧
          (s.plans = .all none → t.rep = ((s.queueReport (.loop .unlocked .lost)).queueReport
            (.applyResult .ok)).rep))) ∧
    (validate a.copy ≠ .ok →
      ∃ t, exec .applyComplete s = .next t ∧
        t.table = { s.table with
          station := if a.fromConfigured = true then .configured else .unconfigured
          applying := none } ∧
        t.rep = (s.queueReport (.applyResult (validate a.copy))).rep ∧ t.loop = s.loop ∧
        t.trays = s.trays ∧ t.doubt = s.doubt ∧ t.port = s.port)

/-- JOIN in CONFIGURED puts the station ONLINE: every record LEARNING but those of the defect list, the doubt
window set, the line ENABLED with its receiver DISCARDING, and no report or frame queued; elsewhere it is
refused (R20, R40, R64, R163). -/
def Obligations.JoinPutsStationOnLine : Prop :=
  ∀ s : State, s.pins.rstLow = false → s.table.station ≠ .applying →
    (s.table.station = .configured →
      ∃ t, exec .join s = .next t ∧ t.table = { s.table with station := .online } ∧
        t.trays.length = s.cfgT ∧
        (∀ k, k < s.cfgT → t.tray? k = some { TrayRec.fresh with
          cond := if (List.range 20).any (fun i => defectEntry s.table.committed i == k && k != 0xFFFF)
            then .defective else .learning }) ∧
        t.doubt = min s.cfgDoubtDistance s.loopLength ∧
        t.line = { s.line with
          enabled := true, attempt := 0, backoff := 0, holdCount := 0, rx := .discarding
          rxBuf := [], rxFault := false } ∧
        t.txq = s.txq ∧ t.rep = s.rep ∧ t.loop = s.loop ∧ t.plans = s.plans) ∧
    (s.table.station ≠ .configured →
      ∃ o, exec .join s = .next
        { s with port := { s.port with commandError := true }, outs := o })

/-- LEAVE in ONLINE ends every plan that is not LAUNCHED, discards the measurement in progress with its record
and its gap test, and stops feeds and transfers; while a launch runs on the station stays LEAVING.
Elsewhere LEAVE is refused (R89, R106, R137, R164, R165; a gap test armed with no measurement is log
39's). -/
def Obligations.LeaveStopsIntakeAndPlanning : Prop :=
  ∀ s : State, s.pins.rstLow = false → s.table.station ≠ .applying →
    (s.table.station = .online →
      ∃ t, exec .leave s = .next t ∧
        (t.table.station = .leaving ∨ t.table.station = .configured) ∧
        ((s.lanes.l0.launchRuns = true ∨ s.lanes.l1.launchRuns = true) →
          t.table = { s.table with station := .leaving }) ∧
        (∀ l sl p, t.plan l sl = some p → p.state = .launched) ∧
        (∀ l, (t.lane l).feed = false ∧ (t.lane l).transfer = none ∧
          (t.lane l).gapTest = none ∧ t.outs.drvEn.get l = false ∧
          ∀ r, (s.lane l).measuring? = some r → (t.lane l).measure = 0 ∧
            ∀ q ∈ (t.lane l).parcels, q.tag ≠ r.tag) ∧
        t.table.committed = s.table.committed ∧ t.table.working = s.table.working ∧
        t.loop = s.loop ∧ t.port = s.port) ∧
    (s.table.station ≠ .online →
      ∃ o, exec .leave s = .next
        { s with port := { s.port with commandError := true }, outs := o })

/-- With no launch running and the queue empty LEAVING ends: CONFIGURED, the line DISABLED, every record
LEARNING, both lanes STOPPED for STATION with empty lists, no plan, the words and the loop kept; before
that the test changes nothing (R21, R65, R106, R118, R165). -/
def Obligations.LeavingEndsWhenLaunchesAndQueueAreDone : Prop :=
  ∀ s : State, s.pins.rstLow = false → s.table.station = .leaving →
    (s.lanes.l0.launchRuns = false → s.lanes.l1.launchRuns = false → s.txq = [] →
      ∃ t, exec .leavingEnd s = .next t ∧ t.table = { s.table with station := .configured } ∧
        t.line.enabled = false ∧ t.trays = List.replicate s.cfgT TrayRec.fresh ∧ t.doubt = 0 ∧
        t.plans = .all none ∧ t.trig = .all none ∧ t.aims = .all none ∧
        (∀ l, (t.lane l).state = .stopped ∧ (t.lane l).reason = .station ∧
          (t.lane l).parcels = [] ∧ (t.lane l).launch = none ∧ (t.lane l).early = none ∧
          ((s.lane l).parcels ≠ [] → (t.lane l).removal = true)) ∧
        (s.lanes.l0.state = .stopped → s.lanes.l1.state = .stopped → t.rep = s.rep) ∧
        t.loop = s.loop ∧ t.port = s.port) ∧
    ((s.lanes.l0.launchRuns = true ∨ s.lanes.l1.launchRuns = true ∨ s.txq ≠ []) →
      s.atRest = true → exec .leavingEnd s = .next s)

/-- READ_TRAY of a tray below T queues its record as it stands, holder 0xFF and partner 0xFFFF where absent,
in every station state but APPLYING; of T or above it queues nothing and sets COMMAND_ERROR (R45). -/
def Obligations.ReadTrayReportsRecord : Prop :=
  ∀ (s : State) (k : BitVec 16), s.pins.rstLow = false → s.table.station ≠ .applying →
    (∀ r, k.toNat < s.cfgT → s.tray? k.toNat = some r →
      let bytes := [0x8B, BitVec.ofNat 8 (k.toNat / 256), BitVec.ofNat 8 k.toNat, r.cond.code,
        r.seen.code, (match r.holder with | some h => BitVec.ofNat 8 h | none => 0xFF),
        (match r.partner with | some j => BitVec.ofNat 8 (j / 256) | none => 0xFF),
        (match r.partner with | some j => BitVec.ofNat 8 j | none => 0xFF)]
      ∃ o, exec (.readTray k) s = .next { s with
        rep := if s.rep.fifo.length + 8 ≤ 128 then { s.rep with fifo := s.rep.fifo ++ bytes }
          else { s.rep with lost := true }
        outs := o }) ∧
    (s.cfgT ≤ k.toNat → ∃ o, exec (.readTray k) s = .next
      { s with port := { s.port with commandError := true }, outs := o })

/-- CLEAR_DEFECT of a tray below T makes a DEFECTIVE record of a map in use LEARNING with seen NONE, which the
tray's next zone exit makes OPEN, and keeps any other; of T or above it sets COMMAND_ERROR. No frame is
queued (R37). -/
def Obligations.ClearDefectClearsMark : Prop :=
  (∀ (s : State) (k : BitVec 16), s.pins.rstLow = false → s.table.station ≠ .applying →
    (∀ r, k.toNat < s.cfgT → s.tray? k.toNat = some r →
      (s.mapInUse = true → r.cond = .defective →
        ∃ trays, exec (.clearDefect k) s = .next { s with trays := trays } ∧
          trays[k.toNat]? = some TrayRec.fresh ∧
          ∀ j, j ≠ k.toNat → r.partner ≠ some j → trays[j]? = s.trays[j]?) ∧
      (s.mapInUse = false ∨ r.cond ≠ .defective → exec (.clearDefect k) s = .next s)) ∧
    (s.cfgT ≤ k.toNat → ∃ o, exec (.clearDefect k) s = .next
      { s with port := { s.port with commandError := true }, outs := o })) ∧
  ∀ (s : State) (k : Nat), s.tray? k = some TrayRec.fresh →
    (s.zoneExitRecord k).tray? k = some { TrayRec.fresh with cond := .opened }

/-- IDENTIFY queues the ID report whole, or drops it whole and sets REPORT_LOST; CLEAR_FLAGS clears the two
sticky flags and keeps the report FIFO. Neither changes anything else but the output lines, and both are
discarded with COMMAND_ERROR while the station is APPLYING (R150; R149, R152). -/
def Obligations.IdentifyAndClearFlags : Prop :=
  ∀ s : State, s.pins.rstLow = false →
    (s.table.station ≠ .applying → ∃ o, exec .identify s = .next { s with
      rep := if s.rep.fifo.length + 4 ≤ 128 then
          { s.rep with fifo := s.rep.fifo ++ [0x8C, 0x2D, 1, 0] }
        else { s.rep with lost := true }
      outs := o }) ∧
    (s.table.station ≠ .applying → ∃ o, exec .clearFlags s = .next { s with
      port := { s.port with commandError := false }, rep := { s.rep with lost := false }
      outs := o } ∧
      (s.rep.fifo = [] → o.attnLow = false)) ∧
    (s.table.station = .applying → ∀ c, c = .identify ∨ c = .clearFlags →
      ∃ o, exec c s = .next { s with port := { s.port with commandError := true }, outs := o })
end

