-- ==== Sys2Proof/Laws/State.lean ====
section
/-! SUPPORT. One lemma a field for each setter of State, and for the values read from one field. -/

namespace Sys2Proof.Machine

/-! ### modLoop -/

@[simp] theorem State.modLoop_loop (s : State) (f : LoopTracker → LoopTracker) : (s.modLoop f).loop = f s.loop := rfl
@[simp] theorem State.modLoop_trig (s : State) (f : LoopTracker → LoopTracker) :
    (s.modLoop f).trig = s.trig := rfl
@[simp] theorem State.modLoop_aims (s : State) (f : LoopTracker → LoopTracker) :
    (s.modLoop f).aims = s.aims := rfl
@[simp] theorem State.modLoop_trays (s : State) (f : LoopTracker → LoopTracker) :
    (s.modLoop f).trays = s.trays := rfl
@[simp] theorem State.modLoop_doubt (s : State) (f : LoopTracker → LoopTracker) :
    (s.modLoop f).doubt = s.doubt := rfl
@[simp] theorem State.modLoop_line (s : State) (f : LoopTracker → LoopTracker) :
    (s.modLoop f).line = s.line := rfl
@[simp] theorem State.modLoop_txq (s : State) (f : LoopTracker → LoopTracker) :
    (s.modLoop f).txq = s.txq := rfl
@[simp] theorem State.modLoop_lanes (s : State) (f : LoopTracker → LoopTracker) :
    (s.modLoop f).lanes = s.lanes := rfl
@[simp] theorem State.modLoop_plans (s : State) (f : LoopTracker → LoopTracker) :
    (s.modLoop f).plans = s.plans := rfl
@[simp] theorem State.modLoop_planner (s : State) (f : LoopTracker → LoopTracker) :
    (s.modLoop f).planner = s.planner := rfl
@[simp] theorem State.modLoop_pace (s : State) (f : LoopTracker → LoopTracker) :
    (s.modLoop f).pace = s.pace := rfl
@[simp] theorem State.modLoop_port (s : State) (f : LoopTracker → LoopTracker) :
    (s.modLoop f).port = s.port := rfl
@[simp] theorem State.modLoop_rep (s : State) (f : LoopTracker → LoopTracker) :
    (s.modLoop f).rep = s.rep := rfl
@[simp] theorem State.modLoop_table (s : State) (f : LoopTracker → LoopTracker) :
    (s.modLoop f).table = s.table := rfl
@[simp] theorem State.modLoop_pins (s : State) (f : LoopTracker → LoopTracker) :
    (s.modLoop f).pins = s.pins := rfl
@[simp] theorem State.modLoop_outs (s : State) (f : LoopTracker → LoopTracker) :
    (s.modLoop f).outs = s.outs := rfl
@[simp] theorem State.modLoop_tick (s : State) (f : LoopTracker → LoopTracker) :
    (s.modLoop f).tick = s.tick := rfl
@[simp] theorem State.modLoop_freeCount (s : State) (f : LoopTracker → LoopTracker) :
    (s.modLoop f).freeCount = s.freeCount := rfl
@[simp] theorem State.modLoop_pending (s : State) (f : LoopTracker → LoopTracker) :
    (s.modLoop f).pending = s.pending := rfl
@[simp] theorem State.modLoop_lane (s : State) (f : LoopTracker → LoopTracker) (m : Lane) :
    (s.modLoop f).lane m = s.lane m := rfl
@[simp] theorem State.modLoop_plan (s : State) (f : LoopTracker → LoopTracker) (m : Lane) (n : Slot) :
    (s.modLoop f).plan m n = s.plan m n := rfl
@[simp] theorem State.modLoop_trayRec (s : State) (f : LoopTracker → LoopTracker) (n : Nat) :
    (s.modLoop f).tray? n = s.tray? n := rfl
@[simp] theorem State.modLoop_cw (s : State) (f : LoopTracker → LoopTracker) (n : Nat) :
    (s.modLoop f).cw n = s.cw n := rfl
@[simp] theorem State.modLoop_online (s : State) (f : LoopTracker → LoopTracker) :
    (s.modLoop f).online = s.online := rfl
@[simp] theorem State.modLoop_busy (s : State) (f : LoopTracker → LoopTracker) :
    (s.modLoop f).busy = s.busy := rfl
@[simp] theorem State.modLoop_mapInUse (s : State) (f : LoopTracker → LoopTracker) :
    (s.modLoop f).mapInUse = s.mapInUse := rfl

/-! ### setTrig -/

@[simp] theorem State.setTrig_loop (s : State) (v : Four (Option Nat)) :
    (s.setTrig v).loop = s.loop := rfl
@[simp] theorem State.setTrig_trig (s : State) (v : Four (Option Nat)) : (s.setTrig v).trig = v := rfl
@[simp] theorem State.setTrig_aims (s : State) (v : Four (Option Nat)) :
    (s.setTrig v).aims = s.aims := rfl
@[simp] theorem State.setTrig_trays (s : State) (v : Four (Option Nat)) :
    (s.setTrig v).trays = s.trays := rfl
@[simp] theorem State.setTrig_doubt (s : State) (v : Four (Option Nat)) :
    (s.setTrig v).doubt = s.doubt := rfl
@[simp] theorem State.setTrig_line (s : State) (v : Four (Option Nat)) :
    (s.setTrig v).line = s.line := rfl
@[simp] theorem State.setTrig_txq (s : State) (v : Four (Option Nat)) :
    (s.setTrig v).txq = s.txq := rfl
@[simp] theorem State.setTrig_lanes (s : State) (v : Four (Option Nat)) :
    (s.setTrig v).lanes = s.lanes := rfl
@[simp] theorem State.setTrig_plans (s : State) (v : Four (Option Nat)) :
    (s.setTrig v).plans = s.plans := rfl
@[simp] theorem State.setTrig_planner (s : State) (v : Four (Option Nat)) :
    (s.setTrig v).planner = s.planner := rfl
@[simp] theorem State.setTrig_pace (s : State) (v : Four (Option Nat)) :
    (s.setTrig v).pace = s.pace := rfl
@[simp] theorem State.setTrig_port (s : State) (v : Four (Option Nat)) :
    (s.setTrig v).port = s.port := rfl
@[simp] theorem State.setTrig_rep (s : State) (v : Four (Option Nat)) :
    (s.setTrig v).rep = s.rep := rfl
@[simp] theorem State.setTrig_table (s : State) (v : Four (Option Nat)) :
    (s.setTrig v).table = s.table := rfl
@[simp] theorem State.setTrig_pins (s : State) (v : Four (Option Nat)) :
    (s.setTrig v).pins = s.pins := rfl
@[simp] theorem State.setTrig_outs (s : State) (v : Four (Option Nat)) :
    (s.setTrig v).outs = s.outs := rfl
@[simp] theorem State.setTrig_tick (s : State) (v : Four (Option Nat)) :
    (s.setTrig v).tick = s.tick := rfl
@[simp] theorem State.setTrig_freeCount (s : State) (v : Four (Option Nat)) :
    (s.setTrig v).freeCount = s.freeCount := rfl
@[simp] theorem State.setTrig_pending (s : State) (v : Four (Option Nat)) :
    (s.setTrig v).pending = s.pending := rfl
@[simp] theorem State.setTrig_lane (s : State) (v : Four (Option Nat)) (m : Lane) :
    (s.setTrig v).lane m = s.lane m := rfl
@[simp] theorem State.setTrig_plan (s : State) (v : Four (Option Nat)) (m : Lane) (n : Slot) :
    (s.setTrig v).plan m n = s.plan m n := rfl
@[simp] theorem State.setTrig_trayRec (s : State) (v : Four (Option Nat)) (n : Nat) :
    (s.setTrig v).tray? n = s.tray? n := rfl
@[simp] theorem State.setTrig_cw (s : State) (v : Four (Option Nat)) (n : Nat) :
    (s.setTrig v).cw n = s.cw n := rfl
@[simp] theorem State.setTrig_online (s : State) (v : Four (Option Nat)) :
    (s.setTrig v).online = s.online := rfl
@[simp] theorem State.setTrig_busy (s : State) (v : Four (Option Nat)) :
    (s.setTrig v).busy = s.busy := rfl
@[simp] theorem State.setTrig_mapInUse (s : State) (v : Four (Option Nat)) :
    (s.setTrig v).mapInUse = s.mapInUse := rfl
@[simp] theorem State.setTrig_locked (s : State) (v : Four (Option Nat)) :
    (s.setTrig v).locked = s.locked := rfl

/-! ### setAims -/

@[simp] theorem State.setAims_loop (s : State) (v : Four (Option Nat)) :
    (s.setAims v).loop = s.loop := rfl
@[simp] theorem State.setAims_trig (s : State) (v : Four (Option Nat)) :
    (s.setAims v).trig = s.trig := rfl
@[simp] theorem State.setAims_aims (s : State) (v : Four (Option Nat)) : (s.setAims v).aims = v := rfl
@[simp] theorem State.setAims_trays (s : State) (v : Four (Option Nat)) :
    (s.setAims v).trays = s.trays := rfl
@[simp] theorem State.setAims_doubt (s : State) (v : Four (Option Nat)) :
    (s.setAims v).doubt = s.doubt := rfl
@[simp] theorem State.setAims_line (s : State) (v : Four (Option Nat)) :
    (s.setAims v).line = s.line := rfl
@[simp] theorem State.setAims_txq (s : State) (v : Four (Option Nat)) :
    (s.setAims v).txq = s.txq := rfl
@[simp] theorem State.setAims_lanes (s : State) (v : Four (Option Nat)) :
    (s.setAims v).lanes = s.lanes := rfl
@[simp] theorem State.setAims_plans (s : State) (v : Four (Option Nat)) :
    (s.setAims v).plans = s.plans := rfl
@[simp] theorem State.setAims_planner (s : State) (v : Four (Option Nat)) :
    (s.setAims v).planner = s.planner := rfl
@[simp] theorem State.setAims_pace (s : State) (v : Four (Option Nat)) :
    (s.setAims v).pace = s.pace := rfl
@[simp] theorem State.setAims_port (s : State) (v : Four (Option Nat)) :
    (s.setAims v).port = s.port := rfl
@[simp] theorem State.setAims_rep (s : State) (v : Four (Option Nat)) :
    (s.setAims v).rep = s.rep := rfl
@[simp] theorem State.setAims_table (s : State) (v : Four (Option Nat)) :
    (s.setAims v).table = s.table := rfl
@[simp] theorem State.setAims_pins (s : State) (v : Four (Option Nat)) :
    (s.setAims v).pins = s.pins := rfl
@[simp] theorem State.setAims_outs (s : State) (v : Four (Option Nat)) :
    (s.setAims v).outs = s.outs := rfl
@[simp] theorem State.setAims_tick (s : State) (v : Four (Option Nat)) :
    (s.setAims v).tick = s.tick := rfl
@[simp] theorem State.setAims_freeCount (s : State) (v : Four (Option Nat)) :
    (s.setAims v).freeCount = s.freeCount := rfl
@[simp] theorem State.setAims_pending (s : State) (v : Four (Option Nat)) :
    (s.setAims v).pending = s.pending := rfl
@[simp] theorem State.setAims_lane (s : State) (v : Four (Option Nat)) (m : Lane) :
    (s.setAims v).lane m = s.lane m := rfl
@[simp] theorem State.setAims_plan (s : State) (v : Four (Option Nat)) (m : Lane) (n : Slot) :
    (s.setAims v).plan m n = s.plan m n := rfl
@[simp] theorem State.setAims_trayRec (s : State) (v : Four (Option Nat)) (n : Nat) :
    (s.setAims v).tray? n = s.tray? n := rfl
@[simp] theorem State.setAims_cw (s : State) (v : Four (Option Nat)) (n : Nat) :
    (s.setAims v).cw n = s.cw n := rfl
@[simp] theorem State.setAims_online (s : State) (v : Four (Option Nat)) :
    (s.setAims v).online = s.online := rfl
@[simp] theorem State.setAims_busy (s : State) (v : Four (Option Nat)) :
    (s.setAims v).busy = s.busy := rfl
@[simp] theorem State.setAims_mapInUse (s : State) (v : Four (Option Nat)) :
    (s.setAims v).mapInUse = s.mapInUse := rfl
@[simp] theorem State.setAims_locked (s : State) (v : Four (Option Nat)) :
    (s.setAims v).locked = s.locked := rfl

/-! ### setTrays -/

@[simp] theorem State.setTrays_loop (s : State) (v : List TrayRec) :
    (s.setTrays v).loop = s.loop := rfl
@[simp] theorem State.setTrays_trig (s : State) (v : List TrayRec) :
    (s.setTrays v).trig = s.trig := rfl
@[simp] theorem State.setTrays_aims (s : State) (v : List TrayRec) :
    (s.setTrays v).aims = s.aims := rfl
@[simp] theorem State.setTrays_trays (s : State) (v : List TrayRec) : (s.setTrays v).trays = v := rfl
@[simp] theorem State.setTrays_doubt (s : State) (v : List TrayRec) :
    (s.setTrays v).doubt = s.doubt := rfl
@[simp] theorem State.setTrays_line (s : State) (v : List TrayRec) :
    (s.setTrays v).line = s.line := rfl
@[simp] theorem State.setTrays_txq (s : State) (v : List TrayRec) :
    (s.setTrays v).txq = s.txq := rfl
@[simp] theorem State.setTrays_lanes (s : State) (v : List TrayRec) :
    (s.setTrays v).lanes = s.lanes := rfl
@[simp] theorem State.setTrays_plans (s : State) (v : List TrayRec) :
    (s.setTrays v).plans = s.plans := rfl
@[simp] theorem State.setTrays_planner (s : State) (v : List TrayRec) :
    (s.setTrays v).planner = s.planner := rfl
@[simp] theorem State.setTrays_pace (s : State) (v : List TrayRec) :
    (s.setTrays v).pace = s.pace := rfl
@[simp] theorem State.setTrays_port (s : State) (v : List TrayRec) :
    (s.setTrays v).port = s.port := rfl
@[simp] theorem State.setTrays_rep (s : State) (v : List TrayRec) :
    (s.setTrays v).rep = s.rep := rfl
@[simp] theorem State.setTrays_table (s : State) (v : List TrayRec) :
    (s.setTrays v).table = s.table := rfl
@[simp] theorem State.setTrays_pins (s : State) (v : List TrayRec) :
    (s.setTrays v).pins = s.pins := rfl
@[simp] theorem State.setTrays_outs (s : State) (v : List TrayRec) :
    (s.setTrays v).outs = s.outs := rfl
@[simp] theorem State.setTrays_tick (s : State) (v : List TrayRec) :
    (s.setTrays v).tick = s.tick := rfl
@[simp] theorem State.setTrays_freeCount (s : State) (v : List TrayRec) :
    (s.setTrays v).freeCount = s.freeCount := rfl
@[simp] theorem State.setTrays_pending (s : State) (v : List TrayRec) :
    (s.setTrays v).pending = s.pending := rfl
@[simp] theorem State.setTrays_lane (s : State) (v : List TrayRec) (m : Lane) :
    (s.setTrays v).lane m = s.lane m := rfl
@[simp] theorem State.setTrays_plan (s : State) (v : List TrayRec) (m : Lane) (n : Slot) :
    (s.setTrays v).plan m n = s.plan m n := rfl
@[simp] theorem State.setTrays_cw (s : State) (v : List TrayRec) (n : Nat) :
    (s.setTrays v).cw n = s.cw n := rfl
@[simp] theorem State.setTrays_online (s : State) (v : List TrayRec) :
    (s.setTrays v).online = s.online := rfl
@[simp] theorem State.setTrays_busy (s : State) (v : List TrayRec) :
    (s.setTrays v).busy = s.busy := rfl
@[simp] theorem State.setTrays_mapInUse (s : State) (v : List TrayRec) :
    (s.setTrays v).mapInUse = s.mapInUse := rfl
@[simp] theorem State.setTrays_locked (s : State) (v : List TrayRec) :
    (s.setTrays v).locked = s.locked := rfl

/-! ### setDoubt -/

@[simp] theorem State.setDoubt_loop (s : State) (v : Nat) :
    (s.setDoubt v).loop = s.loop := rfl
@[simp] theorem State.setDoubt_trig (s : State) (v : Nat) :
    (s.setDoubt v).trig = s.trig := rfl
@[simp] theorem State.setDoubt_aims (s : State) (v : Nat) :
    (s.setDoubt v).aims = s.aims := rfl
@[simp] theorem State.setDoubt_trays (s : State) (v : Nat) :
    (s.setDoubt v).trays = s.trays := rfl
@[simp] theorem State.setDoubt_doubt (s : State) (v : Nat) : (s.setDoubt v).doubt = v := rfl
@[simp] theorem State.setDoubt_line (s : State) (v : Nat) :
    (s.setDoubt v).line = s.line := rfl
@[simp] theorem State.setDoubt_txq (s : State) (v : Nat) :
    (s.setDoubt v).txq = s.txq := rfl
@[simp] theorem State.setDoubt_lanes (s : State) (v : Nat) :
    (s.setDoubt v).lanes = s.lanes := rfl
@[simp] theorem State.setDoubt_plans (s : State) (v : Nat) :
    (s.setDoubt v).plans = s.plans := rfl
@[simp] theorem State.setDoubt_planner (s : State) (v : Nat) :
    (s.setDoubt v).planner = s.planner := rfl
@[simp] theorem State.setDoubt_pace (s : State) (v : Nat) :
    (s.setDoubt v).pace = s.pace := rfl
@[simp] theorem State.setDoubt_port (s : State) (v : Nat) :
    (s.setDoubt v).port = s.port := rfl
@[simp] theorem State.setDoubt_rep (s : State) (v : Nat) :
    (s.setDoubt v).rep = s.rep := rfl
@[simp] theorem State.setDoubt_table (s : State) (v : Nat) :
    (s.setDoubt v).table = s.table := rfl
@[simp] theorem State.setDoubt_pins (s : State) (v : Nat) :
    (s.setDoubt v).pins = s.pins := rfl
@[simp] theorem State.setDoubt_outs (s : State) (v : Nat) :
    (s.setDoubt v).outs = s.outs := rfl
@[simp] theorem State.setDoubt_tick (s : State) (v : Nat) :
    (s.setDoubt v).tick = s.tick := rfl
@[simp] theorem State.setDoubt_freeCount (s : State) (v : Nat) :
    (s.setDoubt v).freeCount = s.freeCount := rfl
@[simp] theorem State.setDoubt_pending (s : State) (v : Nat) :
    (s.setDoubt v).pending = s.pending := rfl
@[simp] theorem State.setDoubt_lane (s : State) (v : Nat) (m : Lane) :
    (s.setDoubt v).lane m = s.lane m := rfl
@[simp] theorem State.setDoubt_plan (s : State) (v : Nat) (m : Lane) (n : Slot) :
    (s.setDoubt v).plan m n = s.plan m n := rfl
@[simp] theorem State.setDoubt_trayRec (s : State) (v : Nat) (n : Nat) :
    (s.setDoubt v).tray? n = s.tray? n := rfl
@[simp] theorem State.setDoubt_cw (s : State) (v : Nat) (n : Nat) :
    (s.setDoubt v).cw n = s.cw n := rfl
@[simp] theorem State.setDoubt_online (s : State) (v : Nat) :
    (s.setDoubt v).online = s.online := rfl
@[simp] theorem State.setDoubt_busy (s : State) (v : Nat) :
    (s.setDoubt v).busy = s.busy := rfl
@[simp] theorem State.setDoubt_mapInUse (s : State) (v : Nat) :
    (s.setDoubt v).mapInUse = s.mapInUse := rfl
@[simp] theorem State.setDoubt_locked (s : State) (v : Nat) :
    (s.setDoubt v).locked = s.locked := rfl

/-! ### modLine -/

@[simp] theorem State.modLine_loop (s : State) (f : LineIf → LineIf) :
    (s.modLine f).loop = s.loop := rfl
@[simp] theorem State.modLine_trig (s : State) (f : LineIf → LineIf) :
    (s.modLine f).trig = s.trig := rfl
@[simp] theorem State.modLine_aims (s : State) (f : LineIf → LineIf) :
    (s.modLine f).aims = s.aims := rfl
@[simp] theorem State.modLine_trays (s : State) (f : LineIf → LineIf) :
    (s.modLine f).trays = s.trays := rfl
@[simp] theorem State.modLine_doubt (s : State) (f : LineIf → LineIf) :
    (s.modLine f).doubt = s.doubt := rfl
@[simp] theorem State.modLine_line (s : State) (f : LineIf → LineIf) : (s.modLine f).line = f s.line := rfl
@[simp] theorem State.modLine_txq (s : State) (f : LineIf → LineIf) :
    (s.modLine f).txq = s.txq := rfl
@[simp] theorem State.modLine_lanes (s : State) (f : LineIf → LineIf) :
    (s.modLine f).lanes = s.lanes := rfl
@[simp] theorem State.modLine_plans (s : State) (f : LineIf → LineIf) :
    (s.modLine f).plans = s.plans := rfl
@[simp] theorem State.modLine_planner (s : State) (f : LineIf → LineIf) :
    (s.modLine f).planner = s.planner := rfl
@[simp] theorem State.modLine_pace (s : State) (f : LineIf → LineIf) :
    (s.modLine f).pace = s.pace := rfl
@[simp] theorem State.modLine_port (s : State) (f : LineIf → LineIf) :
    (s.modLine f).port = s.port := rfl
@[simp] theorem State.modLine_rep (s : State) (f : LineIf → LineIf) :
    (s.modLine f).rep = s.rep := rfl
@[simp] theorem State.modLine_table (s : State) (f : LineIf → LineIf) :
    (s.modLine f).table = s.table := rfl
@[simp] theorem State.modLine_pins (s : State) (f : LineIf → LineIf) :
    (s.modLine f).pins = s.pins := rfl
@[simp] theorem State.modLine_outs (s : State) (f : LineIf → LineIf) :
    (s.modLine f).outs = s.outs := rfl
@[simp] theorem State.modLine_tick (s : State) (f : LineIf → LineIf) :
    (s.modLine f).tick = s.tick := rfl
@[simp] theorem State.modLine_freeCount (s : State) (f : LineIf → LineIf) :
    (s.modLine f).freeCount = s.freeCount := rfl
@[simp] theorem State.modLine_pending (s : State) (f : LineIf → LineIf) :
    (s.modLine f).pending = s.pending := rfl
@[simp] theorem State.modLine_lane (s : State) (f : LineIf → LineIf) (m : Lane) :
    (s.modLine f).lane m = s.lane m := rfl
@[simp] theorem State.modLine_plan (s : State) (f : LineIf → LineIf) (m : Lane) (n : Slot) :
    (s.modLine f).plan m n = s.plan m n := rfl
@[simp] theorem State.modLine_trayRec (s : State) (f : LineIf → LineIf) (n : Nat) :
    (s.modLine f).tray? n = s.tray? n := rfl
@[simp] theorem State.modLine_cw (s : State) (f : LineIf → LineIf) (n : Nat) :
    (s.modLine f).cw n = s.cw n := rfl
@[simp] theorem State.modLine_online (s : State) (f : LineIf → LineIf) :
    (s.modLine f).online = s.online := rfl
@[simp] theorem State.modLine_busy (s : State) (f : LineIf → LineIf) :
    (s.modLine f).busy = s.busy := rfl
@[simp] theorem State.modLine_mapInUse (s : State) (f : LineIf → LineIf) :
    (s.modLine f).mapInUse = s.mapInUse := rfl
@[simp] theorem State.modLine_locked (s : State) (f : LineIf → LineIf) :
    (s.modLine f).locked = s.locked := rfl

/-! ### setTxq -/

@[simp] theorem State.setTxq_loop (s : State) (v : List TxEntry) :
    (s.setTxq v).loop = s.loop := rfl
@[simp] theorem State.setTxq_trig (s : State) (v : List TxEntry) :
    (s.setTxq v).trig = s.trig := rfl
@[simp] theorem State.setTxq_aims (s : State) (v : List TxEntry) :
    (s.setTxq v).aims = s.aims := rfl
@[simp] theorem State.setTxq_trays (s : State) (v : List TxEntry) :
    (s.setTxq v).trays = s.trays := rfl
@[simp] theorem State.setTxq_doubt (s : State) (v : List TxEntry) :
    (s.setTxq v).doubt = s.doubt := rfl
@[simp] theorem State.setTxq_line (s : State) (v : List TxEntry) :
    (s.setTxq v).line = s.line := rfl
@[simp] theorem State.setTxq_txq (s : State) (v : List TxEntry) : (s.setTxq v).txq = v := rfl
@[simp] theorem State.setTxq_lanes (s : State) (v : List TxEntry) :
    (s.setTxq v).lanes = s.lanes := rfl
@[simp] theorem State.setTxq_plans (s : State) (v : List TxEntry) :
    (s.setTxq v).plans = s.plans := rfl
@[simp] theorem State.setTxq_planner (s : State) (v : List TxEntry) :
    (s.setTxq v).planner = s.planner := rfl
@[simp] theorem State.setTxq_pace (s : State) (v : List TxEntry) :
    (s.setTxq v).pace = s.pace := rfl
@[simp] theorem State.setTxq_port (s : State) (v : List TxEntry) :
    (s.setTxq v).port = s.port := rfl
@[simp] theorem State.setTxq_rep (s : State) (v : List TxEntry) :
    (s.setTxq v).rep = s.rep := rfl
@[simp] theorem State.setTxq_table (s : State) (v : List TxEntry) :
    (s.setTxq v).table = s.table := rfl
@[simp] theorem State.setTxq_pins (s : State) (v : List TxEntry) :
    (s.setTxq v).pins = s.pins := rfl
@[simp] theorem State.setTxq_outs (s : State) (v : List TxEntry) :
    (s.setTxq v).outs = s.outs := rfl
@[simp] theorem State.setTxq_tick (s : State) (v : List TxEntry) :
    (s.setTxq v).tick = s.tick := rfl
@[simp] theorem State.setTxq_freeCount (s : State) (v : List TxEntry) :
    (s.setTxq v).freeCount = s.freeCount := rfl
@[simp] theorem State.setTxq_pending (s : State) (v : List TxEntry) :
    (s.setTxq v).pending = s.pending := rfl
@[simp] theorem State.setTxq_lane (s : State) (v : List TxEntry) (m : Lane) :
    (s.setTxq v).lane m = s.lane m := rfl
@[simp] theorem State.setTxq_plan (s : State) (v : List TxEntry) (m : Lane) (n : Slot) :
    (s.setTxq v).plan m n = s.plan m n := rfl
@[simp] theorem State.setTxq_trayRec (s : State) (v : List TxEntry) (n : Nat) :
    (s.setTxq v).tray? n = s.tray? n := rfl
@[simp] theorem State.setTxq_cw (s : State) (v : List TxEntry) (n : Nat) :
    (s.setTxq v).cw n = s.cw n := rfl
@[simp] theorem State.setTxq_online (s : State) (v : List TxEntry) :
    (s.setTxq v).online = s.online := rfl
@[simp] theorem State.setTxq_busy (s : State) (v : List TxEntry) :
    (s.setTxq v).busy = s.busy := rfl
@[simp] theorem State.setTxq_mapInUse (s : State) (v : List TxEntry) :
    (s.setTxq v).mapInUse = s.mapInUse := rfl
@[simp] theorem State.setTxq_locked (s : State) (v : List TxEntry) :
    (s.setTxq v).locked = s.locked := rfl

/-! ### setLanes -/

@[simp] theorem State.setLanes_loop (s : State) (v : Two LaneCtl) :
    (s.setLanes v).loop = s.loop := rfl
@[simp] theorem State.setLanes_trig (s : State) (v : Two LaneCtl) :
    (s.setLanes v).trig = s.trig := rfl
@[simp] theorem State.setLanes_aims (s : State) (v : Two LaneCtl) :
    (s.setLanes v).aims = s.aims := rfl
@[simp] theorem State.setLanes_trays (s : State) (v : Two LaneCtl) :
    (s.setLanes v).trays = s.trays := rfl
@[simp] theorem State.setLanes_doubt (s : State) (v : Two LaneCtl) :
    (s.setLanes v).doubt = s.doubt := rfl
@[simp] theorem State.setLanes_line (s : State) (v : Two LaneCtl) :
    (s.setLanes v).line = s.line := rfl
@[simp] theorem State.setLanes_txq (s : State) (v : Two LaneCtl) :
    (s.setLanes v).txq = s.txq := rfl
@[simp] theorem State.setLanes_lanes (s : State) (v : Two LaneCtl) : (s.setLanes v).lanes = v := rfl
@[simp] theorem State.setLanes_plans (s : State) (v : Two LaneCtl) :
    (s.setLanes v).plans = s.plans := rfl
@[simp] theorem State.setLanes_planner (s : State) (v : Two LaneCtl) :
    (s.setLanes v).planner = s.planner := rfl
@[simp] theorem State.setLanes_pace (s : State) (v : Two LaneCtl) :
    (s.setLanes v).pace = s.pace := rfl
@[simp] theorem State.setLanes_port (s : State) (v : Two LaneCtl) :
    (s.setLanes v).port = s.port := rfl
@[simp] theorem State.setLanes_rep (s : State) (v : Two LaneCtl) :
    (s.setLanes v).rep = s.rep := rfl
@[simp] theorem State.setLanes_table (s : State) (v : Two LaneCtl) :
    (s.setLanes v).table = s.table := rfl
@[simp] theorem State.setLanes_pins (s : State) (v : Two LaneCtl) :
    (s.setLanes v).pins = s.pins := rfl
@[simp] theorem State.setLanes_outs (s : State) (v : Two LaneCtl) :
    (s.setLanes v).outs = s.outs := rfl
@[simp] theorem State.setLanes_tick (s : State) (v : Two LaneCtl) :
    (s.setLanes v).tick = s.tick := rfl
@[simp] theorem State.setLanes_freeCount (s : State) (v : Two LaneCtl) :
    (s.setLanes v).freeCount = s.freeCount := rfl
@[simp] theorem State.setLanes_pending (s : State) (v : Two LaneCtl) :
    (s.setLanes v).pending = s.pending := rfl
@[simp] theorem State.setLanes_plan (s : State) (v : Two LaneCtl) (m : Lane) (n : Slot) :
    (s.setLanes v).plan m n = s.plan m n := rfl
@[simp] theorem State.setLanes_trayRec (s : State) (v : Two LaneCtl) (n : Nat) :
    (s.setLanes v).tray? n = s.tray? n := rfl
@[simp] theorem State.setLanes_cw (s : State) (v : Two LaneCtl) (n : Nat) :
    (s.setLanes v).cw n = s.cw n := rfl
@[simp] theorem State.setLanes_online (s : State) (v : Two LaneCtl) :
    (s.setLanes v).online = s.online := rfl
@[simp] theorem State.setLanes_busy (s : State) (v : Two LaneCtl) :
    (s.setLanes v).busy = s.busy := rfl
@[simp] theorem State.setLanes_mapInUse (s : State) (v : Two LaneCtl) :
    (s.setLanes v).mapInUse = s.mapInUse := rfl
@[simp] theorem State.setLanes_locked (s : State) (v : Two LaneCtl) :
    (s.setLanes v).locked = s.locked := rfl

/-! ### setPlans -/

@[simp] theorem State.setPlans_loop (s : State) (v : Four (Option Plan)) :
    (s.setPlans v).loop = s.loop := rfl
@[simp] theorem State.setPlans_trig (s : State) (v : Four (Option Plan)) :
    (s.setPlans v).trig = s.trig := rfl
@[simp] theorem State.setPlans_aims (s : State) (v : Four (Option Plan)) :
    (s.setPlans v).aims = s.aims := rfl
@[simp] theorem State.setPlans_trays (s : State) (v : Four (Option Plan)) :
    (s.setPlans v).trays = s.trays := rfl
@[simp] theorem State.setPlans_doubt (s : State) (v : Four (Option Plan)) :
    (s.setPlans v).doubt = s.doubt := rfl
@[simp] theorem State.setPlans_line (s : State) (v : Four (Option Plan)) :
    (s.setPlans v).line = s.line := rfl
@[simp] theorem State.setPlans_txq (s : State) (v : Four (Option Plan)) :
    (s.setPlans v).txq = s.txq := rfl
@[simp] theorem State.setPlans_lanes (s : State) (v : Four (Option Plan)) :
    (s.setPlans v).lanes = s.lanes := rfl
@[simp] theorem State.setPlans_plans (s : State) (v : Four (Option Plan)) : (s.setPlans v).plans = v := rfl
@[simp] theorem State.setPlans_planner (s : State) (v : Four (Option Plan)) :
    (s.setPlans v).planner = s.planner := rfl
@[simp] theorem State.setPlans_pace (s : State) (v : Four (Option Plan)) :
    (s.setPlans v).pace = s.pace := rfl
@[simp] theorem State.setPlans_port (s : State) (v : Four (Option Plan)) :
    (s.setPlans v).port = s.port := rfl
@[simp] theorem State.setPlans_rep (s : State) (v : Four (Option Plan)) :
    (s.setPlans v).rep = s.rep := rfl
@[simp] theorem State.setPlans_table (s : State) (v : Four (Option Plan)) :
    (s.setPlans v).table = s.table := rfl
@[simp] theorem State.setPlans_pins (s : State) (v : Four (Option Plan)) :
    (s.setPlans v).pins = s.pins := rfl
@[simp] theorem State.setPlans_outs (s : State) (v : Four (Option Plan)) :
    (s.setPlans v).outs = s.outs := rfl
@[simp] theorem State.setPlans_tick (s : State) (v : Four (Option Plan)) :
    (s.setPlans v).tick = s.tick := rfl
@[simp] theorem State.setPlans_freeCount (s : State) (v : Four (Option Plan)) :
    (s.setPlans v).freeCount = s.freeCount := rfl
@[simp] theorem State.setPlans_pending (s : State) (v : Four (Option Plan)) :
    (s.setPlans v).pending = s.pending := rfl
@[simp] theorem State.setPlans_lane (s : State) (v : Four (Option Plan)) (m : Lane) :
    (s.setPlans v).lane m = s.lane m := rfl
@[simp] theorem State.setPlans_trayRec (s : State) (v : Four (Option Plan)) (n : Nat) :
    (s.setPlans v).tray? n = s.tray? n := rfl
@[simp] theorem State.setPlans_cw (s : State) (v : Four (Option Plan)) (n : Nat) :
    (s.setPlans v).cw n = s.cw n := rfl
@[simp] theorem State.setPlans_online (s : State) (v : Four (Option Plan)) :
    (s.setPlans v).online = s.online := rfl
@[simp] theorem State.setPlans_busy (s : State) (v : Four (Option Plan)) :
    (s.setPlans v).busy = s.busy := rfl
@[simp] theorem State.setPlans_mapInUse (s : State) (v : Four (Option Plan)) :
    (s.setPlans v).mapInUse = s.mapInUse := rfl
@[simp] theorem State.setPlans_locked (s : State) (v : Four (Option Plan)) :
    (s.setPlans v).locked = s.locked := rfl

/-! ### modPlanner -/

@[simp] theorem State.modPlanner_loop (s : State) (f : Planner → Planner) :
    (s.modPlanner f).loop = s.loop := rfl
@[simp] theorem State.modPlanner_trig (s : State) (f : Planner → Planner) :
    (s.modPlanner f).trig = s.trig := rfl
@[simp] theorem State.modPlanner_aims (s : State) (f : Planner → Planner) :
    (s.modPlanner f).aims = s.aims := rfl
@[simp] theorem State.modPlanner_trays (s : State) (f : Planner → Planner) :
    (s.modPlanner f).trays = s.trays := rfl
@[simp] theorem State.modPlanner_doubt (s : State) (f : Planner → Planner) :
    (s.modPlanner f).doubt = s.doubt := rfl
@[simp] theorem State.modPlanner_line (s : State) (f : Planner → Planner) :
    (s.modPlanner f).line = s.line := rfl
@[simp] theorem State.modPlanner_txq (s : State) (f : Planner → Planner) :
    (s.modPlanner f).txq = s.txq := rfl
@[simp] theorem State.modPlanner_lanes (s : State) (f : Planner → Planner) :
    (s.modPlanner f).lanes = s.lanes := rfl
@[simp] theorem State.modPlanner_plans (s : State) (f : Planner → Planner) :
    (s.modPlanner f).plans = s.plans := rfl
@[simp] theorem State.modPlanner_planner (s : State) (f : Planner → Planner) : (s.modPlanner f).planner = f s.planner := rfl
@[simp] theorem State.modPlanner_pace (s : State) (f : Planner → Planner) :
    (s.modPlanner f).pace = s.pace := rfl
@[simp] theorem State.modPlanner_port (s : State) (f : Planner → Planner) :
    (s.modPlanner f).port = s.port := rfl
@[simp] theorem State.modPlanner_rep (s : State) (f : Planner → Planner) :
    (s.modPlanner f).rep = s.rep := rfl
@[simp] theorem State.modPlanner_table (s : State) (f : Planner → Planner) :
    (s.modPlanner f).table = s.table := rfl
@[simp] theorem State.modPlanner_pins (s : State) (f : Planner → Planner) :
    (s.modPlanner f).pins = s.pins := rfl
@[simp] theorem State.modPlanner_outs (s : State) (f : Planner → Planner) :
    (s.modPlanner f).outs = s.outs := rfl
@[simp] theorem State.modPlanner_tick (s : State) (f : Planner → Planner) :
    (s.modPlanner f).tick = s.tick := rfl
@[simp] theorem State.modPlanner_freeCount (s : State) (f : Planner → Planner) :
    (s.modPlanner f).freeCount = s.freeCount := rfl
@[simp] theorem State.modPlanner_pending (s : State) (f : Planner → Planner) :
    (s.modPlanner f).pending = s.pending := rfl
@[simp] theorem State.modPlanner_lane (s : State) (f : Planner → Planner) (m : Lane) :
    (s.modPlanner f).lane m = s.lane m := rfl
@[simp] theorem State.modPlanner_plan (s : State) (f : Planner → Planner) (m : Lane) (n : Slot) :
    (s.modPlanner f).plan m n = s.plan m n := rfl
@[simp] theorem State.modPlanner_trayRec (s : State) (f : Planner → Planner) (n : Nat) :
    (s.modPlanner f).tray? n = s.tray? n := rfl
@[simp] theorem State.modPlanner_cw (s : State) (f : Planner → Planner) (n : Nat) :
    (s.modPlanner f).cw n = s.cw n := rfl
@[simp] theorem State.modPlanner_online (s : State) (f : Planner → Planner) :
    (s.modPlanner f).online = s.online := rfl
@[simp] theorem State.modPlanner_busy (s : State) (f : Planner → Planner) :
    (s.modPlanner f).busy = s.busy := rfl
@[simp] theorem State.modPlanner_mapInUse (s : State) (f : Planner → Planner) :
    (s.modPlanner f).mapInUse = s.mapInUse := rfl
@[simp] theorem State.modPlanner_locked (s : State) (f : Planner → Planner) :
    (s.modPlanner f).locked = s.locked := rfl

/-! ### modPace -/

@[simp] theorem State.modPace_loop (s : State) (f : Pace → Pace) :
    (s.modPace f).loop = s.loop := rfl
@[simp] theorem State.modPace_trig (s : State) (f : Pace → Pace) :
    (s.modPace f).trig = s.trig := rfl
@[simp] theorem State.modPace_aims (s : State) (f : Pace → Pace) :
    (s.modPace f).aims = s.aims := rfl
@[simp] theorem State.modPace_trays (s : State) (f : Pace → Pace) :
    (s.modPace f).trays = s.trays := rfl
@[simp] theorem State.modPace_doubt (s : State) (f : Pace → Pace) :
    (s.modPace f).doubt = s.doubt := rfl
@[simp] theorem State.modPace_line (s : State) (f : Pace → Pace) :
    (s.modPace f).line = s.line := rfl
@[simp] theorem State.modPace_txq (s : State) (f : Pace → Pace) :
    (s.modPace f).txq = s.txq := rfl
@[simp] theorem State.modPace_lanes (s : State) (f : Pace → Pace) :
    (s.modPace f).lanes = s.lanes := rfl
@[simp] theorem State.modPace_plans (s : State) (f : Pace → Pace) :
    (s.modPace f).plans = s.plans := rfl
@[simp] theorem State.modPace_planner (s : State) (f : Pace → Pace) :
    (s.modPace f).planner = s.planner := rfl
@[simp] theorem State.modPace_pace (s : State) (f : Pace → Pace) : (s.modPace f).pace = f s.pace := rfl
@[simp] theorem State.modPace_port (s : State) (f : Pace → Pace) :
    (s.modPace f).port = s.port := rfl
@[simp] theorem State.modPace_rep (s : State) (f : Pace → Pace) :
    (s.modPace f).rep = s.rep := rfl
@[simp] theorem State.modPace_table (s : State) (f : Pace → Pace) :
    (s.modPace f).table = s.table := rfl
@[simp] theorem State.modPace_pins (s : State) (f : Pace → Pace) :
    (s.modPace f).pins = s.pins := rfl
@[simp] theorem State.modPace_outs (s : State) (f : Pace → Pace) :
    (s.modPace f).outs = s.outs := rfl
@[simp] theorem State.modPace_tick (s : State) (f : Pace → Pace) :
    (s.modPace f).tick = s.tick := rfl
@[simp] theorem State.modPace_freeCount (s : State) (f : Pace → Pace) :
    (s.modPace f).freeCount = s.freeCount := rfl
@[simp] theorem State.modPace_pending (s : State) (f : Pace → Pace) :
    (s.modPace f).pending = s.pending := rfl
@[simp] theorem State.modPace_lane (s : State) (f : Pace → Pace) (m : Lane) :
    (s.modPace f).lane m = s.lane m := rfl
@[simp] theorem State.modPace_plan (s : State) (f : Pace → Pace) (m : Lane) (n : Slot) :
    (s.modPace f).plan m n = s.plan m n := rfl
@[simp] theorem State.modPace_trayRec (s : State) (f : Pace → Pace) (n : Nat) :
    (s.modPace f).tray? n = s.tray? n := rfl
@[simp] theorem State.modPace_cw (s : State) (f : Pace → Pace) (n : Nat) :
    (s.modPace f).cw n = s.cw n := rfl
@[simp] theorem State.modPace_online (s : State) (f : Pace → Pace) :
    (s.modPace f).online = s.online := rfl
@[simp] theorem State.modPace_busy (s : State) (f : Pace → Pace) :
    (s.modPace f).busy = s.busy := rfl
@[simp] theorem State.modPace_mapInUse (s : State) (f : Pace → Pace) :
    (s.modPace f).mapInUse = s.mapInUse := rfl
@[simp] theorem State.modPace_locked (s : State) (f : Pace → Pace) :
    (s.modPace f).locked = s.locked := rfl

/-! ### modPort -/

@[simp] theorem State.modPort_loop (s : State) (f : LocalPort → LocalPort) :
    (s.modPort f).loop = s.loop := rfl
@[simp] theorem State.modPort_trig (s : State) (f : LocalPort → LocalPort) :
    (s.modPort f).trig = s.trig := rfl
@[simp] theorem State.modPort_aims (s : State) (f : LocalPort → LocalPort) :
    (s.modPort f).aims = s.aims := rfl
@[simp] theorem State.modPort_trays (s : State) (f : LocalPort → LocalPort) :
    (s.modPort f).trays = s.trays := rfl
@[simp] theorem State.modPort_doubt (s : State) (f : LocalPort → LocalPort) :
    (s.modPort f).doubt = s.doubt := rfl
@[simp] theorem State.modPort_line (s : State) (f : LocalPort → LocalPort) :
    (s.modPort f).line = s.line := rfl
@[simp] theorem State.modPort_txq (s : State) (f : LocalPort → LocalPort) :
    (s.modPort f).txq = s.txq := rfl
@[simp] theorem State.modPort_lanes (s : State) (f : LocalPort → LocalPort) :
    (s.modPort f).lanes = s.lanes := rfl
@[simp] theorem State.modPort_plans (s : State) (f : LocalPort → LocalPort) :
    (s.modPort f).plans = s.plans := rfl
@[simp] theorem State.modPort_planner (s : State) (f : LocalPort → LocalPort) :
    (s.modPort f).planner = s.planner := rfl
@[simp] theorem State.modPort_pace (s : State) (f : LocalPort → LocalPort) :
    (s.modPort f).pace = s.pace := rfl
@[simp] theorem State.modPort_port (s : State) (f : LocalPort → LocalPort) : (s.modPort f).port = f s.port := rfl
@[simp] theorem State.modPort_rep (s : State) (f : LocalPort → LocalPort) :
    (s.modPort f).rep = s.rep := rfl
@[simp] theorem State.modPort_table (s : State) (f : LocalPort → LocalPort) :
    (s.modPort f).table = s.table := rfl
@[simp] theorem State.modPort_pins (s : State) (f : LocalPort → LocalPort) :
    (s.modPort f).pins = s.pins := rfl
@[simp] theorem State.modPort_outs (s : State) (f : LocalPort → LocalPort) :
    (s.modPort f).outs = s.outs := rfl
@[simp] theorem State.modPort_tick (s : State) (f : LocalPort → LocalPort) :
    (s.modPort f).tick = s.tick := rfl
@[simp] theorem State.modPort_freeCount (s : State) (f : LocalPort → LocalPort) :
    (s.modPort f).freeCount = s.freeCount := rfl
@[simp] theorem State.modPort_pending (s : State) (f : LocalPort → LocalPort) :
    (s.modPort f).pending = s.pending := rfl
@[simp] theorem State.modPort_lane (s : State) (f : LocalPort → LocalPort) (m : Lane) :
    (s.modPort f).lane m = s.lane m := rfl
@[simp] theorem State.modPort_plan (s : State) (f : LocalPort → LocalPort) (m : Lane) (n : Slot) :
    (s.modPort f).plan m n = s.plan m n := rfl
@[simp] theorem State.modPort_trayRec (s : State) (f : LocalPort → LocalPort) (n : Nat) :
    (s.modPort f).tray? n = s.tray? n := rfl
@[simp] theorem State.modPort_cw (s : State) (f : LocalPort → LocalPort) (n : Nat) :
    (s.modPort f).cw n = s.cw n := rfl
@[simp] theorem State.modPort_online (s : State) (f : LocalPort → LocalPort) :
    (s.modPort f).online = s.online := rfl
@[simp] theorem State.modPort_busy (s : State) (f : LocalPort → LocalPort) :
    (s.modPort f).busy = s.busy := rfl
@[simp] theorem State.modPort_mapInUse (s : State) (f : LocalPort → LocalPort) :
    (s.modPort f).mapInUse = s.mapInUse := rfl
@[simp] theorem State.modPort_locked (s : State) (f : LocalPort → LocalPort) :
    (s.modPort f).locked = s.locked := rfl

/-! ### modRep -/

@[simp] theorem State.modRep_loop (s : State) (f : ReportPort → ReportPort) :
    (s.modRep f).loop = s.loop := rfl
@[simp] theorem State.modRep_trig (s : State) (f : ReportPort → ReportPort) :
    (s.modRep f).trig = s.trig := rfl
@[simp] theorem State.modRep_aims (s : State) (f : ReportPort → ReportPort) :
    (s.modRep f).aims = s.aims := rfl
@[simp] theorem State.modRep_trays (s : State) (f : ReportPort → ReportPort) :
    (s.modRep f).trays = s.trays := rfl
@[simp] theorem State.modRep_doubt (s : State) (f : ReportPort → ReportPort) :
    (s.modRep f).doubt = s.doubt := rfl
@[simp] theorem State.modRep_line (s : State) (f : ReportPort → ReportPort) :
    (s.modRep f).line = s.line := rfl
@[simp] theorem State.modRep_txq (s : State) (f : ReportPort → ReportPort) :
    (s.modRep f).txq = s.txq := rfl
@[simp] theorem State.modRep_lanes (s : State) (f : ReportPort → ReportPort) :
    (s.modRep f).lanes = s.lanes := rfl
@[simp] theorem State.modRep_plans (s : State) (f : ReportPort → ReportPort) :
    (s.modRep f).plans = s.plans := rfl
@[simp] theorem State.modRep_planner (s : State) (f : ReportPort → ReportPort) :
    (s.modRep f).planner = s.planner := rfl
@[simp] theorem State.modRep_pace (s : State) (f : ReportPort → ReportPort) :
    (s.modRep f).pace = s.pace := rfl
@[simp] theorem State.modRep_port (s : State) (f : ReportPort → ReportPort) :
    (s.modRep f).port = s.port := rfl
@[simp] theorem State.modRep_rep (s : State) (f : ReportPort → ReportPort) : (s.modRep f).rep = f s.rep := rfl
@[simp] theorem State.modRep_table (s : State) (f : ReportPort → ReportPort) :
    (s.modRep f).table = s.table := rfl
@[simp] theorem State.modRep_pins (s : State) (f : ReportPort → ReportPort) :
    (s.modRep f).pins = s.pins := rfl
@[simp] theorem State.modRep_outs (s : State) (f : ReportPort → ReportPort) :
    (s.modRep f).outs = s.outs := rfl
@[simp] theorem State.modRep_tick (s : State) (f : ReportPort → ReportPort) :
    (s.modRep f).tick = s.tick := rfl
@[simp] theorem State.modRep_freeCount (s : State) (f : ReportPort → ReportPort) :
    (s.modRep f).freeCount = s.freeCount := rfl
@[simp] theorem State.modRep_pending (s : State) (f : ReportPort → ReportPort) :
    (s.modRep f).pending = s.pending := rfl
@[simp] theorem State.modRep_lane (s : State) (f : ReportPort → ReportPort) (m : Lane) :
    (s.modRep f).lane m = s.lane m := rfl
@[simp] theorem State.modRep_plan (s : State) (f : ReportPort → ReportPort) (m : Lane) (n : Slot) :
    (s.modRep f).plan m n = s.plan m n := rfl
@[simp] theorem State.modRep_trayRec (s : State) (f : ReportPort → ReportPort) (n : Nat) :
    (s.modRep f).tray? n = s.tray? n := rfl
@[simp] theorem State.modRep_cw (s : State) (f : ReportPort → ReportPort) (n : Nat) :
    (s.modRep f).cw n = s.cw n := rfl
@[simp] theorem State.modRep_online (s : State) (f : ReportPort → ReportPort) :
    (s.modRep f).online = s.online := rfl
@[simp] theorem State.modRep_busy (s : State) (f : ReportPort → ReportPort) :
    (s.modRep f).busy = s.busy := rfl
@[simp] theorem State.modRep_mapInUse (s : State) (f : ReportPort → ReportPort) :
    (s.modRep f).mapInUse = s.mapInUse := rfl
@[simp] theorem State.modRep_locked (s : State) (f : ReportPort → ReportPort) :
    (s.modRep f).locked = s.locked := rfl

/-! ### modTable -/

@[simp] theorem State.modTable_loop (s : State) (f : ConfigTable → ConfigTable) :
    (s.modTable f).loop = s.loop := rfl
@[simp] theorem State.modTable_trig (s : State) (f : ConfigTable → ConfigTable) :
    (s.modTable f).trig = s.trig := rfl
@[simp] theorem State.modTable_aims (s : State) (f : ConfigTable → ConfigTable) :
    (s.modTable f).aims = s.aims := rfl
@[simp] theorem State.modTable_trays (s : State) (f : ConfigTable → ConfigTable) :
    (s.modTable f).trays = s.trays := rfl
@[simp] theorem State.modTable_doubt (s : State) (f : ConfigTable → ConfigTable) :
    (s.modTable f).doubt = s.doubt := rfl
@[simp] theorem State.modTable_line (s : State) (f : ConfigTable → ConfigTable) :
    (s.modTable f).line = s.line := rfl
@[simp] theorem State.modTable_txq (s : State) (f : ConfigTable → ConfigTable) :
    (s.modTable f).txq = s.txq := rfl
@[simp] theorem State.modTable_lanes (s : State) (f : ConfigTable → ConfigTable) :
    (s.modTable f).lanes = s.lanes := rfl
@[simp] theorem State.modTable_plans (s : State) (f : ConfigTable → ConfigTable) :
    (s.modTable f).plans = s.plans := rfl
@[simp] theorem State.modTable_planner (s : State) (f : ConfigTable → ConfigTable) :
    (s.modTable f).planner = s.planner := rfl
@[simp] theorem State.modTable_pace (s : State) (f : ConfigTable → ConfigTable) :
    (s.modTable f).pace = s.pace := rfl
@[simp] theorem State.modTable_port (s : State) (f : ConfigTable → ConfigTable) :
    (s.modTable f).port = s.port := rfl
@[simp] theorem State.modTable_rep (s : State) (f : ConfigTable → ConfigTable) :
    (s.modTable f).rep = s.rep := rfl
@[simp] theorem State.modTable_table (s : State) (f : ConfigTable → ConfigTable) : (s.modTable f).table = f s.table := rfl
@[simp] theorem State.modTable_pins (s : State) (f : ConfigTable → ConfigTable) :
    (s.modTable f).pins = s.pins := rfl
@[simp] theorem State.modTable_outs (s : State) (f : ConfigTable → ConfigTable) :
    (s.modTable f).outs = s.outs := rfl
@[simp] theorem State.modTable_tick (s : State) (f : ConfigTable → ConfigTable) :
    (s.modTable f).tick = s.tick := rfl
@[simp] theorem State.modTable_freeCount (s : State) (f : ConfigTable → ConfigTable) :
    (s.modTable f).freeCount = s.freeCount := rfl
@[simp] theorem State.modTable_pending (s : State) (f : ConfigTable → ConfigTable) :
    (s.modTable f).pending = s.pending := rfl
@[simp] theorem State.modTable_lane (s : State) (f : ConfigTable → ConfigTable) (m : Lane) :
    (s.modTable f).lane m = s.lane m := rfl
@[simp] theorem State.modTable_plan (s : State) (f : ConfigTable → ConfigTable) (m : Lane) (n : Slot) :
    (s.modTable f).plan m n = s.plan m n := rfl
@[simp] theorem State.modTable_trayRec (s : State) (f : ConfigTable → ConfigTable) (n : Nat) :
    (s.modTable f).tray? n = s.tray? n := rfl
@[simp] theorem State.modTable_locked (s : State) (f : ConfigTable → ConfigTable) :
    (s.modTable f).locked = s.locked := rfl

/-! ### modPins -/

@[simp] theorem State.modPins_loop (s : State) (f : Pins → Pins) :
    (s.modPins f).loop = s.loop := rfl
@[simp] theorem State.modPins_trig (s : State) (f : Pins → Pins) :
    (s.modPins f).trig = s.trig := rfl
@[simp] theorem State.modPins_aims (s : State) (f : Pins → Pins) :
    (s.modPins f).aims = s.aims := rfl
@[simp] theorem State.modPins_trays (s : State) (f : Pins → Pins) :
    (s.modPins f).trays = s.trays := rfl
@[simp] theorem State.modPins_doubt (s : State) (f : Pins → Pins) :
    (s.modPins f).doubt = s.doubt := rfl
@[simp] theorem State.modPins_line (s : State) (f : Pins → Pins) :
    (s.modPins f).line = s.line := rfl
@[simp] theorem State.modPins_txq (s : State) (f : Pins → Pins) :
    (s.modPins f).txq = s.txq := rfl
@[simp] theorem State.modPins_lanes (s : State) (f : Pins → Pins) :
    (s.modPins f).lanes = s.lanes := rfl
@[simp] theorem State.modPins_plans (s : State) (f : Pins → Pins) :
    (s.modPins f).plans = s.plans := rfl
@[simp] theorem State.modPins_planner (s : State) (f : Pins → Pins) :
    (s.modPins f).planner = s.planner := rfl
@[simp] theorem State.modPins_pace (s : State) (f : Pins → Pins) :
    (s.modPins f).pace = s.pace := rfl
@[simp] theorem State.modPins_port (s : State) (f : Pins → Pins) :
    (s.modPins f).port = s.port := rfl
@[simp] theorem State.modPins_rep (s : State) (f : Pins → Pins) :
    (s.modPins f).rep = s.rep := rfl
@[simp] theorem State.modPins_table (s : State) (f : Pins → Pins) :
    (s.modPins f).table = s.table := rfl
@[simp] theorem State.modPins_pins (s : State) (f : Pins → Pins) : (s.modPins f).pins = f s.pins := rfl
@[simp] theorem State.modPins_outs (s : State) (f : Pins → Pins) :
    (s.modPins f).outs = s.outs := rfl
@[simp] theorem State.modPins_tick (s : State) (f : Pins → Pins) :
    (s.modPins f).tick = s.tick := rfl
@[simp] theorem State.modPins_freeCount (s : State) (f : Pins → Pins) :
    (s.modPins f).freeCount = s.freeCount := rfl
@[simp] theorem State.modPins_pending (s : State) (f : Pins → Pins) :
    (s.modPins f).pending = s.pending := rfl
@[simp] theorem State.modPins_lane (s : State) (f : Pins → Pins) (m : Lane) :
    (s.modPins f).lane m = s.lane m := rfl
@[simp] theorem State.modPins_plan (s : State) (f : Pins → Pins) (m : Lane) (n : Slot) :
    (s.modPins f).plan m n = s.plan m n := rfl
@[simp] theorem State.modPins_trayRec (s : State) (f : Pins → Pins) (n : Nat) :
    (s.modPins f).tray? n = s.tray? n := rfl
@[simp] theorem State.modPins_cw (s : State) (f : Pins → Pins) (n : Nat) :
    (s.modPins f).cw n = s.cw n := rfl
@[simp] theorem State.modPins_online (s : State) (f : Pins → Pins) :
    (s.modPins f).online = s.online := rfl
@[simp] theorem State.modPins_busy (s : State) (f : Pins → Pins) :
    (s.modPins f).busy = s.busy := rfl
@[simp] theorem State.modPins_mapInUse (s : State) (f : Pins → Pins) :
    (s.modPins f).mapInUse = s.mapInUse := rfl
@[simp] theorem State.modPins_locked (s : State) (f : Pins → Pins) :
    (s.modPins f).locked = s.locked := rfl

/-! ### setOuts -/

@[simp] theorem State.setOuts_loop (s : State) (v : Outs) :
    (s.setOuts v).loop = s.loop := rfl
@[simp] theorem State.setOuts_trig (s : State) (v : Outs) :
    (s.setOuts v).trig = s.trig := rfl
@[simp] theorem State.setOuts_aims (s : State) (v : Outs) :
    (s.setOuts v).aims = s.aims := rfl
@[simp] theorem State.setOuts_trays (s : State) (v : Outs) :
    (s.setOuts v).trays = s.trays := rfl
@[simp] theorem State.setOuts_doubt (s : State) (v : Outs) :
    (s.setOuts v).doubt = s.doubt := rfl
@[simp] theorem State.setOuts_line (s : State) (v : Outs) :
    (s.setOuts v).line = s.line := rfl
@[simp] theorem State.setOuts_txq (s : State) (v : Outs) :
    (s.setOuts v).txq = s.txq := rfl
@[simp] theorem State.setOuts_lanes (s : State) (v : Outs) :
    (s.setOuts v).lanes = s.lanes := rfl
@[simp] theorem State.setOuts_plans (s : State) (v : Outs) :
    (s.setOuts v).plans = s.plans := rfl
@[simp] theorem State.setOuts_planner (s : State) (v : Outs) :
    (s.setOuts v).planner = s.planner := rfl
@[simp] theorem State.setOuts_pace (s : State) (v : Outs) :
    (s.setOuts v).pace = s.pace := rfl
@[simp] theorem State.setOuts_port (s : State) (v : Outs) :
    (s.setOuts v).port = s.port := rfl
@[simp] theorem State.setOuts_rep (s : State) (v : Outs) :
    (s.setOuts v).rep = s.rep := rfl
@[simp] theorem State.setOuts_table (s : State) (v : Outs) :
    (s.setOuts v).table = s.table := rfl
@[simp] theorem State.setOuts_pins (s : State) (v : Outs) :
    (s.setOuts v).pins = s.pins := rfl
@[simp] theorem State.setOuts_outs (s : State) (v : Outs) : (s.setOuts v).outs = v := rfl
@[simp] theorem State.setOuts_tick (s : State) (v : Outs) :
    (s.setOuts v).tick = s.tick := rfl
@[simp] theorem State.setOuts_freeCount (s : State) (v : Outs) :
    (s.setOuts v).freeCount = s.freeCount := rfl
@[simp] theorem State.setOuts_pending (s : State) (v : Outs) :
    (s.setOuts v).pending = s.pending := rfl
@[simp] theorem State.setOuts_lane (s : State) (v : Outs) (m : Lane) :
    (s.setOuts v).lane m = s.lane m := rfl
@[simp] theorem State.setOuts_plan (s : State) (v : Outs) (m : Lane) (n : Slot) :
    (s.setOuts v).plan m n = s.plan m n := rfl
@[simp] theorem State.setOuts_trayRec (s : State) (v : Outs) (n : Nat) :
    (s.setOuts v).tray? n = s.tray? n := rfl
@[simp] theorem State.setOuts_cw (s : State) (v : Outs) (n : Nat) :
    (s.setOuts v).cw n = s.cw n := rfl
@[simp] theorem State.setOuts_online (s : State) (v : Outs) :
    (s.setOuts v).online = s.online := rfl
@[simp] theorem State.setOuts_busy (s : State) (v : Outs) :
    (s.setOuts v).busy = s.busy := rfl
@[simp] theorem State.setOuts_mapInUse (s : State) (v : Outs) :
    (s.setOuts v).mapInUse = s.mapInUse := rfl
@[simp] theorem State.setOuts_locked (s : State) (v : Outs) :
    (s.setOuts v).locked = s.locked := rfl

/-! ### setFreeCount -/

@[simp] theorem State.setFreeCount_loop (s : State) (v : Nat) :
    (s.setFreeCount v).loop = s.loop := rfl
@[simp] theorem State.setFreeCount_trig (s : State) (v : Nat) :
    (s.setFreeCount v).trig = s.trig := rfl
@[simp] theorem State.setFreeCount_aims (s : State) (v : Nat) :
    (s.setFreeCount v).aims = s.aims := rfl
@[simp] theorem State.setFreeCount_trays (s : State) (v : Nat) :
    (s.setFreeCount v).trays = s.trays := rfl
@[simp] theorem State.setFreeCount_doubt (s : State) (v : Nat) :
    (s.setFreeCount v).doubt = s.doubt := rfl
@[simp] theorem State.setFreeCount_line (s : State) (v : Nat) :
    (s.setFreeCount v).line = s.line := rfl
@[simp] theorem State.setFreeCount_txq (s : State) (v : Nat) :
    (s.setFreeCount v).txq = s.txq := rfl
@[simp] theorem State.setFreeCount_lanes (s : State) (v : Nat) :
    (s.setFreeCount v).lanes = s.lanes := rfl
@[simp] theorem State.setFreeCount_plans (s : State) (v : Nat) :
    (s.setFreeCount v).plans = s.plans := rfl
@[simp] theorem State.setFreeCount_planner (s : State) (v : Nat) :
    (s.setFreeCount v).planner = s.planner := rfl
@[simp] theorem State.setFreeCount_pace (s : State) (v : Nat) :
    (s.setFreeCount v).pace = s.pace := rfl
@[simp] theorem State.setFreeCount_port (s : State) (v : Nat) :
    (s.setFreeCount v).port = s.port := rfl
@[simp] theorem State.setFreeCount_rep (s : State) (v : Nat) :
    (s.setFreeCount v).rep = s.rep := rfl
@[simp] theorem State.setFreeCount_table (s : State) (v : Nat) :
    (s.setFreeCount v).table = s.table := rfl
@[simp] theorem State.setFreeCount_pins (s : State) (v : Nat) :
    (s.setFreeCount v).pins = s.pins := rfl
@[simp] theorem State.setFreeCount_outs (s : State) (v : Nat) :
    (s.setFreeCount v).outs = s.outs := rfl
@[simp] theorem State.setFreeCount_tick (s : State) (v : Nat) :
    (s.setFreeCount v).tick = s.tick := rfl
@[simp] theorem State.setFreeCount_freeCount (s : State) (v : Nat) : (s.setFreeCount v).freeCount = v := rfl
@[simp] theorem State.setFreeCount_pending (s : State) (v : Nat) :
    (s.setFreeCount v).pending = s.pending := rfl
@[simp] theorem State.setFreeCount_lane (s : State) (v : Nat) (m : Lane) :
    (s.setFreeCount v).lane m = s.lane m := rfl
@[simp] theorem State.setFreeCount_plan (s : State) (v : Nat) (m : Lane) (n : Slot) :
    (s.setFreeCount v).plan m n = s.plan m n := rfl
@[simp] theorem State.setFreeCount_trayRec (s : State) (v : Nat) (n : Nat) :
    (s.setFreeCount v).tray? n = s.tray? n := rfl
@[simp] theorem State.setFreeCount_cw (s : State) (v : Nat) (n : Nat) :
    (s.setFreeCount v).cw n = s.cw n := rfl
@[simp] theorem State.setFreeCount_online (s : State) (v : Nat) :
    (s.setFreeCount v).online = s.online := rfl
@[simp] theorem State.setFreeCount_busy (s : State) (v : Nat) :
    (s.setFreeCount v).busy = s.busy := rfl
@[simp] theorem State.setFreeCount_mapInUse (s : State) (v : Nat) :
    (s.setFreeCount v).mapInUse = s.mapInUse := rfl
@[simp] theorem State.setFreeCount_locked (s : State) (v : Nat) :
    (s.setFreeCount v).locked = s.locked := rfl

/-! ### modLane -/

@[simp] theorem State.modLane_loop (s : State) (l : Lane) (f : LaneCtl → LaneCtl) :
    (s.modLane l f).loop = s.loop := rfl
@[simp] theorem State.modLane_trig (s : State) (l : Lane) (f : LaneCtl → LaneCtl) :
    (s.modLane l f).trig = s.trig := rfl
@[simp] theorem State.modLane_aims (s : State) (l : Lane) (f : LaneCtl → LaneCtl) :
    (s.modLane l f).aims = s.aims := rfl
@[simp] theorem State.modLane_trays (s : State) (l : Lane) (f : LaneCtl → LaneCtl) :
    (s.modLane l f).trays = s.trays := rfl
@[simp] theorem State.modLane_doubt (s : State) (l : Lane) (f : LaneCtl → LaneCtl) :
    (s.modLane l f).doubt = s.doubt := rfl
@[simp] theorem State.modLane_line (s : State) (l : Lane) (f : LaneCtl → LaneCtl) :
    (s.modLane l f).line = s.line := rfl
@[simp] theorem State.modLane_txq (s : State) (l : Lane) (f : LaneCtl → LaneCtl) :
    (s.modLane l f).txq = s.txq := rfl
@[simp] theorem State.modLane_lanes (s : State) (l : Lane) (f : LaneCtl → LaneCtl) : (s.modLane l f).lanes = s.lanes.set l (f (s.lanes.get l)) := rfl
@[simp] theorem State.modLane_plans (s : State) (l : Lane) (f : LaneCtl → LaneCtl) :
    (s.modLane l f).plans = s.plans := rfl
@[simp] theorem State.modLane_planner (s : State) (l : Lane) (f : LaneCtl → LaneCtl) :
    (s.modLane l f).planner = s.planner := rfl
@[simp] theorem State.modLane_pace (s : State) (l : Lane) (f : LaneCtl → LaneCtl) :
    (s.modLane l f).pace = s.pace := rfl
@[simp] theorem State.modLane_port (s : State) (l : Lane) (f : LaneCtl → LaneCtl) :
    (s.modLane l f).port = s.port := rfl
@[simp] theorem State.modLane_rep (s : State) (l : Lane) (f : LaneCtl → LaneCtl) :
    (s.modLane l f).rep = s.rep := rfl
@[simp] theorem State.modLane_table (s : State) (l : Lane) (f : LaneCtl → LaneCtl) :
    (s.modLane l f).table = s.table := rfl
@[simp] theorem State.modLane_pins (s : State) (l : Lane) (f : LaneCtl → LaneCtl) :
    (s.modLane l f).pins = s.pins := rfl
@[simp] theorem State.modLane_outs (s : State) (l : Lane) (f : LaneCtl → LaneCtl) :
    (s.modLane l f).outs = s.outs := rfl
@[simp] theorem State.modLane_tick (s : State) (l : Lane) (f : LaneCtl → LaneCtl) :
    (s.modLane l f).tick = s.tick := rfl
@[simp] theorem State.modLane_freeCount (s : State) (l : Lane) (f : LaneCtl → LaneCtl) :
    (s.modLane l f).freeCount = s.freeCount := rfl
@[simp] theorem State.modLane_pending (s : State) (l : Lane) (f : LaneCtl → LaneCtl) :
    (s.modLane l f).pending = s.pending := rfl
@[simp] theorem State.modLane_plan (s : State) (l : Lane) (f : LaneCtl → LaneCtl) (m : Lane) (n : Slot) :
    (s.modLane l f).plan m n = s.plan m n := rfl
@[simp] theorem State.modLane_trayRec (s : State) (l : Lane) (f : LaneCtl → LaneCtl) (n : Nat) :
    (s.modLane l f).tray? n = s.tray? n := rfl
@[simp] theorem State.modLane_cw (s : State) (l : Lane) (f : LaneCtl → LaneCtl) (n : Nat) :
    (s.modLane l f).cw n = s.cw n := rfl
@[simp] theorem State.modLane_online (s : State) (l : Lane) (f : LaneCtl → LaneCtl) :
    (s.modLane l f).online = s.online := rfl
@[simp] theorem State.modLane_busy (s : State) (l : Lane) (f : LaneCtl → LaneCtl) :
    (s.modLane l f).busy = s.busy := rfl
@[simp] theorem State.modLane_mapInUse (s : State) (l : Lane) (f : LaneCtl → LaneCtl) :
    (s.modLane l f).mapInUse = s.mapInUse := rfl
@[simp] theorem State.modLane_locked (s : State) (l : Lane) (f : LaneCtl → LaneCtl) :
    (s.modLane l f).locked = s.locked := rfl

/-! ### setPlan -/

@[simp] theorem State.setPlan_loop (s : State) (l : Lane) (sl : Slot) (p : Option Plan) :
    (s.setPlan l sl p).loop = s.loop := rfl
@[simp] theorem State.setPlan_trig (s : State) (l : Lane) (sl : Slot) (p : Option Plan) :
    (s.setPlan l sl p).trig = s.trig := rfl
@[simp] theorem State.setPlan_aims (s : State) (l : Lane) (sl : Slot) (p : Option Plan) :
    (s.setPlan l sl p).aims = s.aims := rfl
@[simp] theorem State.setPlan_trays (s : State) (l : Lane) (sl : Slot) (p : Option Plan) :
    (s.setPlan l sl p).trays = s.trays := rfl
@[simp] theorem State.setPlan_doubt (s : State) (l : Lane) (sl : Slot) (p : Option Plan) :
    (s.setPlan l sl p).doubt = s.doubt := rfl
@[simp] theorem State.setPlan_line (s : State) (l : Lane) (sl : Slot) (p : Option Plan) :
    (s.setPlan l sl p).line = s.line := rfl
@[simp] theorem State.setPlan_txq (s : State) (l : Lane) (sl : Slot) (p : Option Plan) :
    (s.setPlan l sl p).txq = s.txq := rfl
@[simp] theorem State.setPlan_lanes (s : State) (l : Lane) (sl : Slot) (p : Option Plan) :
    (s.setPlan l sl p).lanes = s.lanes := rfl
@[simp] theorem State.setPlan_plans (s : State) (l : Lane) (sl : Slot) (p : Option Plan) : (s.setPlan l sl p).plans = s.plans.set l sl p := rfl
@[simp] theorem State.setPlan_planner (s : State) (l : Lane) (sl : Slot) (p : Option Plan) :
    (s.setPlan l sl p).planner = s.planner := rfl
@[simp] theorem State.setPlan_pace (s : State) (l : Lane) (sl : Slot) (p : Option Plan) :
    (s.setPlan l sl p).pace = s.pace := rfl
@[simp] theorem State.setPlan_port (s : State) (l : Lane) (sl : Slot) (p : Option Plan) :
    (s.setPlan l sl p).port = s.port := rfl
@[simp] theorem State.setPlan_rep (s : State) (l : Lane) (sl : Slot) (p : Option Plan) :
    (s.setPlan l sl p).rep = s.rep := rfl
@[simp] theorem State.setPlan_table (s : State) (l : Lane) (sl : Slot) (p : Option Plan) :
    (s.setPlan l sl p).table = s.table := rfl
@[simp] theorem State.setPlan_pins (s : State) (l : Lane) (sl : Slot) (p : Option Plan) :
    (s.setPlan l sl p).pins = s.pins := rfl
@[simp] theorem State.setPlan_outs (s : State) (l : Lane) (sl : Slot) (p : Option Plan) :
    (s.setPlan l sl p).outs = s.outs := rfl
@[simp] theorem State.setPlan_tick (s : State) (l : Lane) (sl : Slot) (p : Option Plan) :
    (s.setPlan l sl p).tick = s.tick := rfl
@[simp] theorem State.setPlan_freeCount (s : State) (l : Lane) (sl : Slot) (p : Option Plan) :
    (s.setPlan l sl p).freeCount = s.freeCount := rfl
@[simp] theorem State.setPlan_pending (s : State) (l : Lane) (sl : Slot) (p : Option Plan) :
    (s.setPlan l sl p).pending = s.pending := rfl
@[simp] theorem State.setPlan_lane (s : State) (l : Lane) (sl : Slot) (p : Option Plan) (m : Lane) :
    (s.setPlan l sl p).lane m = s.lane m := rfl
@[simp] theorem State.setPlan_trayRec (s : State) (l : Lane) (sl : Slot) (p : Option Plan) (n : Nat) :
    (s.setPlan l sl p).tray? n = s.tray? n := rfl
@[simp] theorem State.setPlan_cw (s : State) (l : Lane) (sl : Slot) (p : Option Plan) (n : Nat) :
    (s.setPlan l sl p).cw n = s.cw n := rfl
@[simp] theorem State.setPlan_online (s : State) (l : Lane) (sl : Slot) (p : Option Plan) :
    (s.setPlan l sl p).online = s.online := rfl
@[simp] theorem State.setPlan_busy (s : State) (l : Lane) (sl : Slot) (p : Option Plan) :
    (s.setPlan l sl p).busy = s.busy := rfl
@[simp] theorem State.setPlan_mapInUse (s : State) (l : Lane) (sl : Slot) (p : Option Plan) :
    (s.setPlan l sl p).mapInUse = s.mapInUse := rfl
@[simp] theorem State.setPlan_locked (s : State) (l : Lane) (sl : Slot) (p : Option Plan) :
    (s.setPlan l sl p).locked = s.locked := rfl

/-! ### modPaceLane -/

@[simp] theorem State.modPaceLane_loop (s : State) (l : Lane) (f : PaceLane → PaceLane) :
    (s.modPaceLane l f).loop = s.loop := rfl
@[simp] theorem State.modPaceLane_trig (s : State) (l : Lane) (f : PaceLane → PaceLane) :
    (s.modPaceLane l f).trig = s.trig := rfl
@[simp] theorem State.modPaceLane_aims (s : State) (l : Lane) (f : PaceLane → PaceLane) :
    (s.modPaceLane l f).aims = s.aims := rfl
@[simp] theorem State.modPaceLane_trays (s : State) (l : Lane) (f : PaceLane → PaceLane) :
    (s.modPaceLane l f).trays = s.trays := rfl
@[simp] theorem State.modPaceLane_doubt (s : State) (l : Lane) (f : PaceLane → PaceLane) :
    (s.modPaceLane l f).doubt = s.doubt := rfl
@[simp] theorem State.modPaceLane_line (s : State) (l : Lane) (f : PaceLane → PaceLane) :
    (s.modPaceLane l f).line = s.line := rfl
@[simp] theorem State.modPaceLane_txq (s : State) (l : Lane) (f : PaceLane → PaceLane) :
    (s.modPaceLane l f).txq = s.txq := rfl
@[simp] theorem State.modPaceLane_lanes (s : State) (l : Lane) (f : PaceLane → PaceLane) :
    (s.modPaceLane l f).lanes = s.lanes := rfl
@[simp] theorem State.modPaceLane_plans (s : State) (l : Lane) (f : PaceLane → PaceLane) :
    (s.modPaceLane l f).plans = s.plans := rfl
@[simp] theorem State.modPaceLane_planner (s : State) (l : Lane) (f : PaceLane → PaceLane) :
    (s.modPaceLane l f).planner = s.planner := rfl
@[simp] theorem State.modPaceLane_port (s : State) (l : Lane) (f : PaceLane → PaceLane) :
    (s.modPaceLane l f).port = s.port := rfl
@[simp] theorem State.modPaceLane_rep (s : State) (l : Lane) (f : PaceLane → PaceLane) :
    (s.modPaceLane l f).rep = s.rep := rfl
@[simp] theorem State.modPaceLane_table (s : State) (l : Lane) (f : PaceLane → PaceLane) :
    (s.modPaceLane l f).table = s.table := rfl
@[simp] theorem State.modPaceLane_pins (s : State) (l : Lane) (f : PaceLane → PaceLane) :
    (s.modPaceLane l f).pins = s.pins := rfl
@[simp] theorem State.modPaceLane_outs (s : State) (l : Lane) (f : PaceLane → PaceLane) :
    (s.modPaceLane l f).outs = s.outs := rfl
@[simp] theorem State.modPaceLane_tick (s : State) (l : Lane) (f : PaceLane → PaceLane) :
    (s.modPaceLane l f).tick = s.tick := rfl
@[simp] theorem State.modPaceLane_freeCount (s : State) (l : Lane) (f : PaceLane → PaceLane) :
    (s.modPaceLane l f).freeCount = s.freeCount := rfl
@[simp] theorem State.modPaceLane_pending (s : State) (l : Lane) (f : PaceLane → PaceLane) :
    (s.modPaceLane l f).pending = s.pending := rfl
@[simp] theorem State.modPaceLane_lane (s : State) (l : Lane) (f : PaceLane → PaceLane) (m : Lane) :
    (s.modPaceLane l f).lane m = s.lane m := rfl
@[simp] theorem State.modPaceLane_plan (s : State) (l : Lane) (f : PaceLane → PaceLane) (m : Lane) (n : Slot) :
    (s.modPaceLane l f).plan m n = s.plan m n := rfl
@[simp] theorem State.modPaceLane_trayRec (s : State) (l : Lane) (f : PaceLane → PaceLane) (n : Nat) :
    (s.modPaceLane l f).tray? n = s.tray? n := rfl
@[simp] theorem State.modPaceLane_cw (s : State) (l : Lane) (f : PaceLane → PaceLane) (n : Nat) :
    (s.modPaceLane l f).cw n = s.cw n := rfl
@[simp] theorem State.modPaceLane_online (s : State) (l : Lane) (f : PaceLane → PaceLane) :
    (s.modPaceLane l f).online = s.online := rfl
@[simp] theorem State.modPaceLane_busy (s : State) (l : Lane) (f : PaceLane → PaceLane) :
    (s.modPaceLane l f).busy = s.busy := rfl
@[simp] theorem State.modPaceLane_mapInUse (s : State) (l : Lane) (f : PaceLane → PaceLane) :
    (s.modPaceLane l f).mapInUse = s.mapInUse := rfl
@[simp] theorem State.modPaceLane_locked (s : State) (l : Lane) (f : PaceLane → PaceLane) :
    (s.modPaceLane l f).locked = s.locked := rfl

/-! ### modTray -/

@[simp] theorem State.modTray_loop (s : State) (k : Nat) (f : TrayRec → TrayRec) :
    (s.modTray k f).loop = s.loop := rfl
@[simp] theorem State.modTray_trig (s : State) (k : Nat) (f : TrayRec → TrayRec) :
    (s.modTray k f).trig = s.trig := rfl
@[simp] theorem State.modTray_aims (s : State) (k : Nat) (f : TrayRec → TrayRec) :
    (s.modTray k f).aims = s.aims := rfl
@[simp] theorem State.modTray_trays (s : State) (k : Nat) (f : TrayRec → TrayRec) : (s.modTray k f).trays = s.trays.modify k f := rfl
@[simp] theorem State.modTray_doubt (s : State) (k : Nat) (f : TrayRec → TrayRec) :
    (s.modTray k f).doubt = s.doubt := rfl
@[simp] theorem State.modTray_line (s : State) (k : Nat) (f : TrayRec → TrayRec) :
    (s.modTray k f).line = s.line := rfl
@[simp] theorem State.modTray_txq (s : State) (k : Nat) (f : TrayRec → TrayRec) :
    (s.modTray k f).txq = s.txq := rfl
@[simp] theorem State.modTray_lanes (s : State) (k : Nat) (f : TrayRec → TrayRec) :
    (s.modTray k f).lanes = s.lanes := rfl
@[simp] theorem State.modTray_plans (s : State) (k : Nat) (f : TrayRec → TrayRec) :
    (s.modTray k f).plans = s.plans := rfl
@[simp] theorem State.modTray_planner (s : State) (k : Nat) (f : TrayRec → TrayRec) :
    (s.modTray k f).planner = s.planner := rfl
@[simp] theorem State.modTray_pace (s : State) (k : Nat) (f : TrayRec → TrayRec) :
    (s.modTray k f).pace = s.pace := rfl
@[simp] theorem State.modTray_port (s : State) (k : Nat) (f : TrayRec → TrayRec) :
    (s.modTray k f).port = s.port := rfl
@[simp] theorem State.modTray_rep (s : State) (k : Nat) (f : TrayRec → TrayRec) :
    (s.modTray k f).rep = s.rep := rfl
@[simp] theorem State.modTray_table (s : State) (k : Nat) (f : TrayRec → TrayRec) :
    (s.modTray k f).table = s.table := rfl
@[simp] theorem State.modTray_pins (s : State) (k : Nat) (f : TrayRec → TrayRec) :
    (s.modTray k f).pins = s.pins := rfl
@[simp] theorem State.modTray_outs (s : State) (k : Nat) (f : TrayRec → TrayRec) :
    (s.modTray k f).outs = s.outs := rfl
@[simp] theorem State.modTray_tick (s : State) (k : Nat) (f : TrayRec → TrayRec) :
    (s.modTray k f).tick = s.tick := rfl
@[simp] theorem State.modTray_freeCount (s : State) (k : Nat) (f : TrayRec → TrayRec) :
    (s.modTray k f).freeCount = s.freeCount := rfl
@[simp] theorem State.modTray_pending (s : State) (k : Nat) (f : TrayRec → TrayRec) :
    (s.modTray k f).pending = s.pending := rfl
@[simp] theorem State.modTray_lane (s : State) (k : Nat) (f : TrayRec → TrayRec) (m : Lane) :
    (s.modTray k f).lane m = s.lane m := rfl
@[simp] theorem State.modTray_plan (s : State) (k : Nat) (f : TrayRec → TrayRec) (m : Lane) (n : Slot) :
    (s.modTray k f).plan m n = s.plan m n := rfl
@[simp] theorem State.modTray_cw (s : State) (k : Nat) (f : TrayRec → TrayRec) (n : Nat) :
    (s.modTray k f).cw n = s.cw n := rfl
@[simp] theorem State.modTray_online (s : State) (k : Nat) (f : TrayRec → TrayRec) :
    (s.modTray k f).online = s.online := rfl
@[simp] theorem State.modTray_busy (s : State) (k : Nat) (f : TrayRec → TrayRec) :
    (s.modTray k f).busy = s.busy := rfl
@[simp] theorem State.modTray_mapInUse (s : State) (k : Nat) (f : TrayRec → TrayRec) :
    (s.modTray k f).mapInUse = s.mapInUse := rfl
@[simp] theorem State.modTray_locked (s : State) (k : Nat) (f : TrayRec → TrayRec) :
    (s.modTray k f).locked = s.locked := rfl

/-! ### modParcel -/

@[simp] theorem State.modParcel_loop (s : State) (l : Lane) (t : Tag) (f : Parcel → Parcel) :
    (s.modParcel l t f).loop = s.loop := rfl
@[simp] theorem State.modParcel_trig (s : State) (l : Lane) (t : Tag) (f : Parcel → Parcel) :
    (s.modParcel l t f).trig = s.trig := rfl
@[simp] theorem State.modParcel_aims (s : State) (l : Lane) (t : Tag) (f : Parcel → Parcel) :
    (s.modParcel l t f).aims = s.aims := rfl
@[simp] theorem State.modParcel_trays (s : State) (l : Lane) (t : Tag) (f : Parcel → Parcel) :
    (s.modParcel l t f).trays = s.trays := rfl
@[simp] theorem State.modParcel_doubt (s : State) (l : Lane) (t : Tag) (f : Parcel → Parcel) :
    (s.modParcel l t f).doubt = s.doubt := rfl
@[simp] theorem State.modParcel_line (s : State) (l : Lane) (t : Tag) (f : Parcel → Parcel) :
    (s.modParcel l t f).line = s.line := rfl
@[simp] theorem State.modParcel_txq (s : State) (l : Lane) (t : Tag) (f : Parcel → Parcel) :
    (s.modParcel l t f).txq = s.txq := rfl
@[simp] theorem State.modParcel_plans (s : State) (l : Lane) (t : Tag) (f : Parcel → Parcel) :
    (s.modParcel l t f).plans = s.plans := rfl
@[simp] theorem State.modParcel_planner (s : State) (l : Lane) (t : Tag) (f : Parcel → Parcel) :
    (s.modParcel l t f).planner = s.planner := rfl
@[simp] theorem State.modParcel_pace (s : State) (l : Lane) (t : Tag) (f : Parcel → Parcel) :
    (s.modParcel l t f).pace = s.pace := rfl
@[simp] theorem State.modParcel_port (s : State) (l : Lane) (t : Tag) (f : Parcel → Parcel) :
    (s.modParcel l t f).port = s.port := rfl
@[simp] theorem State.modParcel_rep (s : State) (l : Lane) (t : Tag) (f : Parcel → Parcel) :
    (s.modParcel l t f).rep = s.rep := rfl
@[simp] theorem State.modParcel_table (s : State) (l : Lane) (t : Tag) (f : Parcel → Parcel) :
    (s.modParcel l t f).table = s.table := rfl
@[simp] theorem State.modParcel_pins (s : State) (l : Lane) (t : Tag) (f : Parcel → Parcel) :
    (s.modParcel l t f).pins = s.pins := rfl
@[simp] theorem State.modParcel_outs (s : State) (l : Lane) (t : Tag) (f : Parcel → Parcel) :
    (s.modParcel l t f).outs = s.outs := rfl
@[simp] theorem State.modParcel_tick (s : State) (l : Lane) (t : Tag) (f : Parcel → Parcel) :
    (s.modParcel l t f).tick = s.tick := rfl
@[simp] theorem State.modParcel_freeCount (s : State) (l : Lane) (t : Tag) (f : Parcel → Parcel) :
    (s.modParcel l t f).freeCount = s.freeCount := rfl
@[simp] theorem State.modParcel_pending (s : State) (l : Lane) (t : Tag) (f : Parcel → Parcel) :
    (s.modParcel l t f).pending = s.pending := rfl
@[simp] theorem State.modParcel_plan (s : State) (l : Lane) (t : Tag) (f : Parcel → Parcel) (m : Lane) (n : Slot) :
    (s.modParcel l t f).plan m n = s.plan m n := rfl
@[simp] theorem State.modParcel_trayRec (s : State) (l : Lane) (t : Tag) (f : Parcel → Parcel) (n : Nat) :
    (s.modParcel l t f).tray? n = s.tray? n := rfl
@[simp] theorem State.modParcel_cw (s : State) (l : Lane) (t : Tag) (f : Parcel → Parcel) (n : Nat) :
    (s.modParcel l t f).cw n = s.cw n := rfl
@[simp] theorem State.modParcel_online (s : State) (l : Lane) (t : Tag) (f : Parcel → Parcel) :
    (s.modParcel l t f).online = s.online := rfl
@[simp] theorem State.modParcel_busy (s : State) (l : Lane) (t : Tag) (f : Parcel → Parcel) :
    (s.modParcel l t f).busy = s.busy := rfl
@[simp] theorem State.modParcel_mapInUse (s : State) (l : Lane) (t : Tag) (f : Parcel → Parcel) :
    (s.modParcel l t f).mapInUse = s.mapInUse := rfl
@[simp] theorem State.modParcel_locked (s : State) (l : Lane) (t : Tag) (f : Parcel → Parcel) :
    (s.modParcel l t f).locked = s.locked := rfl

/-! ### queueReport -/

@[simp] theorem State.queueReport_loop (s : State) (r : Report) :
    (s.queueReport r).loop = s.loop := rfl
@[simp] theorem State.queueReport_trig (s : State) (r : Report) :
    (s.queueReport r).trig = s.trig := rfl
@[simp] theorem State.queueReport_aims (s : State) (r : Report) :
    (s.queueReport r).aims = s.aims := rfl
@[simp] theorem State.queueReport_trays (s : State) (r : Report) :
    (s.queueReport r).trays = s.trays := rfl
@[simp] theorem State.queueReport_doubt (s : State) (r : Report) :
    (s.queueReport r).doubt = s.doubt := rfl
@[simp] theorem State.queueReport_line (s : State) (r : Report) :
    (s.queueReport r).line = s.line := rfl
@[simp] theorem State.queueReport_txq (s : State) (r : Report) :
    (s.queueReport r).txq = s.txq := rfl
@[simp] theorem State.queueReport_lanes (s : State) (r : Report) :
    (s.queueReport r).lanes = s.lanes := rfl
@[simp] theorem State.queueReport_plans (s : State) (r : Report) :
    (s.queueReport r).plans = s.plans := rfl
@[simp] theorem State.queueReport_planner (s : State) (r : Report) :
    (s.queueReport r).planner = s.planner := rfl
@[simp] theorem State.queueReport_pace (s : State) (r : Report) :
    (s.queueReport r).pace = s.pace := rfl
@[simp] theorem State.queueReport_port (s : State) (r : Report) :
    (s.queueReport r).port = s.port := rfl
@[simp] theorem State.queueReport_table (s : State) (r : Report) :
    (s.queueReport r).table = s.table := rfl
@[simp] theorem State.queueReport_pins (s : State) (r : Report) :
    (s.queueReport r).pins = s.pins := rfl
@[simp] theorem State.queueReport_outs (s : State) (r : Report) :
    (s.queueReport r).outs = s.outs := rfl
@[simp] theorem State.queueReport_tick (s : State) (r : Report) :
    (s.queueReport r).tick = s.tick := rfl
@[simp] theorem State.queueReport_freeCount (s : State) (r : Report) :
    (s.queueReport r).freeCount = s.freeCount := rfl
@[simp] theorem State.queueReport_pending (s : State) (r : Report) :
    (s.queueReport r).pending = s.pending := rfl
@[simp] theorem State.queueReport_lane (s : State) (r : Report) (m : Lane) :
    (s.queueReport r).lane m = s.lane m := rfl
@[simp] theorem State.queueReport_plan (s : State) (r : Report) (m : Lane) (n : Slot) :
    (s.queueReport r).plan m n = s.plan m n := rfl
@[simp] theorem State.queueReport_trayRec (s : State) (r : Report) (n : Nat) :
    (s.queueReport r).tray? n = s.tray? n := rfl
@[simp] theorem State.queueReport_cw (s : State) (r : Report) (n : Nat) :
    (s.queueReport r).cw n = s.cw n := rfl
@[simp] theorem State.queueReport_online (s : State) (r : Report) :
    (s.queueReport r).online = s.online := rfl
@[simp] theorem State.queueReport_busy (s : State) (r : Report) :
    (s.queueReport r).busy = s.busy := rfl
@[simp] theorem State.queueReport_mapInUse (s : State) (r : Report) :
    (s.queueReport r).mapInUse = s.mapInUse := rfl
@[simp] theorem State.queueReport_locked (s : State) (r : Report) :
    (s.queueReport r).locked = s.locked := rfl

/-! ### setSeen -/

@[simp] theorem State.setSeen_loop (s : State) (k : Nat) (v : Seen) :
    (s.setSeen k v).loop = s.loop := rfl
@[simp] theorem State.setSeen_trig (s : State) (k : Nat) (v : Seen) :
    (s.setSeen k v).trig = s.trig := rfl
@[simp] theorem State.setSeen_aims (s : State) (k : Nat) (v : Seen) :
    (s.setSeen k v).aims = s.aims := rfl
@[simp] theorem State.setSeen_doubt (s : State) (k : Nat) (v : Seen) :
    (s.setSeen k v).doubt = s.doubt := rfl
@[simp] theorem State.setSeen_line (s : State) (k : Nat) (v : Seen) :
    (s.setSeen k v).line = s.line := rfl
@[simp] theorem State.setSeen_txq (s : State) (k : Nat) (v : Seen) :
    (s.setSeen k v).txq = s.txq := rfl
@[simp] theorem State.setSeen_lanes (s : State) (k : Nat) (v : Seen) :
    (s.setSeen k v).lanes = s.lanes := rfl
@[simp] theorem State.setSeen_plans (s : State) (k : Nat) (v : Seen) :
    (s.setSeen k v).plans = s.plans := rfl
@[simp] theorem State.setSeen_planner (s : State) (k : Nat) (v : Seen) :
    (s.setSeen k v).planner = s.planner := rfl
@[simp] theorem State.setSeen_pace (s : State) (k : Nat) (v : Seen) :
    (s.setSeen k v).pace = s.pace := rfl
@[simp] theorem State.setSeen_port (s : State) (k : Nat) (v : Seen) :
    (s.setSeen k v).port = s.port := rfl
@[simp] theorem State.setSeen_rep (s : State) (k : Nat) (v : Seen) :
    (s.setSeen k v).rep = s.rep := rfl
@[simp] theorem State.setSeen_table (s : State) (k : Nat) (v : Seen) :
    (s.setSeen k v).table = s.table := rfl
@[simp] theorem State.setSeen_pins (s : State) (k : Nat) (v : Seen) :
    (s.setSeen k v).pins = s.pins := rfl
@[simp] theorem State.setSeen_outs (s : State) (k : Nat) (v : Seen) :
    (s.setSeen k v).outs = s.outs := rfl
@[simp] theorem State.setSeen_tick (s : State) (k : Nat) (v : Seen) :
    (s.setSeen k v).tick = s.tick := rfl
@[simp] theorem State.setSeen_freeCount (s : State) (k : Nat) (v : Seen) :
    (s.setSeen k v).freeCount = s.freeCount := rfl
@[simp] theorem State.setSeen_pending (s : State) (k : Nat) (v : Seen) :
    (s.setSeen k v).pending = s.pending := rfl
@[simp] theorem State.setSeen_lane (s : State) (k : Nat) (v : Seen) (m : Lane) :
    (s.setSeen k v).lane m = s.lane m := rfl
@[simp] theorem State.setSeen_plan (s : State) (k : Nat) (v : Seen) (m : Lane) (n : Slot) :
    (s.setSeen k v).plan m n = s.plan m n := rfl
@[simp] theorem State.setSeen_cw (s : State) (k : Nat) (v : Seen) (n : Nat) :
    (s.setSeen k v).cw n = s.cw n := rfl
@[simp] theorem State.setSeen_online (s : State) (k : Nat) (v : Seen) :
    (s.setSeen k v).online = s.online := rfl
@[simp] theorem State.setSeen_busy (s : State) (k : Nat) (v : Seen) :
    (s.setSeen k v).busy = s.busy := rfl
@[simp] theorem State.setSeen_mapInUse (s : State) (k : Nat) (v : Seen) :
    (s.setSeen k v).mapInUse = s.mapInUse := rfl
@[simp] theorem State.setSeen_locked (s : State) (k : Nat) (v : Seen) :
    (s.setSeen k v).locked = s.locked := rfl

/-! ### withPending -/

@[simp] theorem State.withPending_loop (s : State) (q : List Instr) :
    (s.withPending q).loop = s.loop := rfl
@[simp] theorem State.withPending_trig (s : State) (q : List Instr) :
    (s.withPending q).trig = s.trig := rfl
@[simp] theorem State.withPending_aims (s : State) (q : List Instr) :
    (s.withPending q).aims = s.aims := rfl
@[simp] theorem State.withPending_trays (s : State) (q : List Instr) :
    (s.withPending q).trays = s.trays := rfl
@[simp] theorem State.withPending_doubt (s : State) (q : List Instr) :
    (s.withPending q).doubt = s.doubt := rfl
@[simp] theorem State.withPending_line (s : State) (q : List Instr) :
    (s.withPending q).line = s.line := rfl
@[simp] theorem State.withPending_txq (s : State) (q : List Instr) :
    (s.withPending q).txq = s.txq := rfl
@[simp] theorem State.withPending_lanes (s : State) (q : List Instr) :
    (s.withPending q).lanes = s.lanes := rfl
@[simp] theorem State.withPending_plans (s : State) (q : List Instr) :
    (s.withPending q).plans = s.plans := rfl
@[simp] theorem State.withPending_planner (s : State) (q : List Instr) :
    (s.withPending q).planner = s.planner := rfl
@[simp] theorem State.withPending_pace (s : State) (q : List Instr) :
    (s.withPending q).pace = s.pace := rfl
@[simp] theorem State.withPending_port (s : State) (q : List Instr) :
    (s.withPending q).port = s.port := rfl
@[simp] theorem State.withPending_rep (s : State) (q : List Instr) :
    (s.withPending q).rep = s.rep := rfl
@[simp] theorem State.withPending_table (s : State) (q : List Instr) :
    (s.withPending q).table = s.table := rfl
@[simp] theorem State.withPending_pins (s : State) (q : List Instr) :
    (s.withPending q).pins = s.pins := rfl
@[simp] theorem State.withPending_outs (s : State) (q : List Instr) :
    (s.withPending q).outs = s.outs := rfl
@[simp] theorem State.withPending_tick (s : State) (q : List Instr) :
    (s.withPending q).tick = s.tick := rfl
@[simp] theorem State.withPending_freeCount (s : State) (q : List Instr) :
    (s.withPending q).freeCount = s.freeCount := rfl
@[simp] theorem State.withPending_pending (s : State) (q : List Instr) : (s.withPending q).pending = q := rfl
@[simp] theorem State.withPending_lane (s : State) (q : List Instr) (m : Lane) :
    (s.withPending q).lane m = s.lane m := rfl
@[simp] theorem State.withPending_plan (s : State) (q : List Instr) (m : Lane) (n : Slot) :
    (s.withPending q).plan m n = s.plan m n := rfl
@[simp] theorem State.withPending_trayRec (s : State) (q : List Instr) (n : Nat) :
    (s.withPending q).tray? n = s.tray? n := rfl
@[simp] theorem State.withPending_cw (s : State) (q : List Instr) (n : Nat) :
    (s.withPending q).cw n = s.cw n := rfl
@[simp] theorem State.withPending_online (s : State) (q : List Instr) :
    (s.withPending q).online = s.online := rfl
@[simp] theorem State.withPending_busy (s : State) (q : List Instr) :
    (s.withPending q).busy = s.busy := rfl
@[simp] theorem State.withPending_mapInUse (s : State) (q : List Instr) :
    (s.withPending q).mapInUse = s.mapInUse := rfl
@[simp] theorem State.withPending_locked (s : State) (q : List Instr) :
    (s.withPending q).locked = s.locked := rfl

/-! ### Containers -/

@[simp] theorem Two.get_set_self {α : Type} (t : Two α) (l : Lane) (a : α) : (t.set l a).get l = a := by
  cases l <;> rfl

theorem Two.get_set_ne {α : Type} (t : Two α) {l m : Lane} (a : α) (h : m ≠ l) :
    (t.set l a).get m = t.get m := by
  cases l <;> cases m <;> first | rfl | exact absurd rfl h

theorem Two.ext_get {α : Type} {t u : Two α} (h : ∀ l, t.get l = u.get l) : t = u := by
  cases t; cases u; have h0 := h .l0; have h1 := h .l1; simp_all [Two.get]

@[simp] theorem Two.set_get {α : Type} (t : Two α) (l : Lane) : t.set l (t.get l) = t := by
  cases l <;> rfl

@[simp] theorem Two.all_get {α : Type} (a : α) (l : Lane) : (Two.all a).get l = a := by
  cases l <;> rfl

@[simp] theorem Four.get_set_self {α : Type} (t : Four α) (l : Lane) (sl : Slot) (a : α) :
    (t.set l sl a).get l sl = a := by cases l <;> cases sl <;> rfl

theorem Four.get_set_ne {α : Type} (t : Four α) {l m : Lane} {sl sm : Slot} (a : α)
    (h : (m, sm) ≠ (l, sl)) : (t.set l sl a).get m sm = t.get m sm := by
  cases l <;> cases sl <;> cases m <;> cases sm <;> first | rfl | exact absurd rfl h

theorem Four.ext_get {α : Type} {t u : Four α} (h : ∀ l sl, t.get l sl = u.get l sl) : t = u := by
  cases t; cases u
  have h0 := h .l0 .s0; have h1 := h .l0 .s1; have h2 := h .l1 .s0; have h3 := h .l1 .s1
  simp_all [Four.get]

@[simp] theorem Four.set_get {α : Type} (t : Four α) (l : Lane) (sl : Slot) :
    t.set l sl (t.get l sl) = t := by cases l <;> cases sl <;> rfl

@[simp] theorem Four.all_get {α : Type} (a : α) (l : Lane) (sl : Slot) : (Four.all a).get l sl = a := by
  cases l <;> cases sl <;> rfl

@[simp] theorem Four.all_set {α : Type} (a : α) (l : Lane) (sl : Slot) :
    (Four.all a).set l sl a = Four.all a := by cases l <;> cases sl <;> rfl

/-! ### Derived reads -/

@[simp] theorem State.modLane_lane_self (s : State) (l : Lane) (f : LaneCtl → LaneCtl) :
    (s.modLane l f).lane l = f (s.lane l) := by
  cases l <;> rfl

theorem State.modLane_lane_ne (s : State) {l m : Lane} (f : LaneCtl → LaneCtl) (h : m ≠ l) :
    (s.modLane l f).lane m = s.lane m := Two.get_set_ne _ _ h

@[simp] theorem State.setPlan_plan_self (s : State) (l : Lane) (sl : Slot) (p : Option Plan) :
    (s.setPlan l sl p).plan l sl = p := by cases l <;> cases sl <;> rfl

@[simp] theorem State.modTray_length (s : State) (k : Nat) (f : TrayRec → TrayRec) :
    (s.modTray k f).trays.length = s.trays.length := by simp

end Sys2Proof.Machine
end

