-- ==== Sys2Proof/Laws/Candidates.lean ====
section
/-! SUPPORT. The candidates of R125 and R138, said once: which distances and trays they are, and that they come
nearest first. -/

namespace Sys2Proof.Machine

/-! ### The committed geometry -/

theorem wordPasses_of_firstBadWord {w : Words} (h : firstBadWord w = none) {i : Nat} (hi : i < 48) :
    wordPasses w i = true := by
  have := List.find?_eq_none.1 h i (List.mem_range.2 hi)
  simpa using this

/-- R160, R161: the geometry a validated copy has, as far as the aim search leans on it. -/
theorem State.validated_geometry {s : State} (h : s.validated = true) :
    16 ≤ s.cfgT ∧ 400 ≤ s.cfgP ∧ s.cfgP % 2 = 0 ∧ s.cfgH < s.loopLength := by
  unfold State.validated at h
  have hv : validate s.table.committed = .ok := by simpa using h
  unfold validate at hv
  cases hb : firstBadWord s.table.committed with
  | some i => rw [hb] at hv; cases hv
  | none =>
    rw [hb] at hv
    cases hc : firstConflict s.table.committed with
    | some i => rw [hc] at hv; cases hv
    | none =>
      have h2 := wordPasses_of_firstBadWord hb (show 2 < 48 by decide)
      have h3 := wordPasses_of_firstBadWord hb (show 3 < 48 by decide)
      simp [wordPasses, wordRange, inRange] at h2 h3
      have hr : ∀ o ∈ relationFailures s.table.committed, o = none := by
        intro o ho
        have := List.findSome?_eq_none_iff.1 hc o ho
        simpa using this
      have h7 := hr _ (show _ ∈ relationFailures s.table.committed from by
        unfold relationFailures
        exact List.mem_cons_of_mem _ (List.mem_cons_of_mem _ (List.mem_cons_of_mem _
          (List.mem_cons_of_mem _ (List.mem_cons_of_mem _ List.mem_cons_self)))))
      have h7' : wv s.table.committed 7 < wv s.table.committed 2 * wv s.table.committed 3 := by
        by_contra hn
        simp only [ite_eq_left_iff, reduceCtorEq, imp_false, Bool.not_eq_true, decide_eq_false_iff_not] at h7
        omega
      refine ⟨h2.1, h3.1.1, h3.2, h7'⟩

/-! ### Distances on the loop -/

/-- A distance short of the loop is that of a position exactly where it leads there. -/
theorem fd_eq_iff {len a b d : Nat} (ha : a < len) (hb : b < len) (hd : d < len) :
    forwardDistance len a b = d ↔ (a + d) % len = b := by
  unfold forwardDistance
  rw [Nat.mod_eq_of_lt ha]
  rcases Nat.lt_or_ge b a with h | h
  · rw [Nat.mod_eq_of_lt (by omega)]
    rcases Nat.lt_or_ge (a + d) len with k | k
    · rw [Nat.mod_eq_of_lt k]; omega
    · rw [Nat.mod_eq_sub_mod k, Nat.mod_eq_of_lt (by omega)]; omega
  · rw [Nat.mod_eq_sub_mod (by omega), Nat.mod_eq_of_lt (by omega)]
    rcases Nat.lt_or_ge (a + d) len with k | k
    · rw [Nat.mod_eq_of_lt k]; omega
    · rw [Nat.mod_eq_sub_mod k, Nat.mod_eq_of_lt (by omega)]; omega

theorem State.aimOffset_lt {s : State} (hp : 0 < s.cfgP) (sp : Span) : s.aimOffset sp < s.cfgP := by
  cases sp <;> simp only [State.aimOffset] <;> omega

/-- The first candidate is the least distance from `a` on that ends at an aim. -/
theorem State.firstCandidate_spec (s : State) (a off : Nat) (hp : 0 < s.cfgP) (ho : off < s.cfgP) :
    a ≤ s.firstCandidate a off ∧ s.firstCandidate a off < a + s.cfgP ∧
      (s.loop.S + s.firstCandidate a off) % s.cfgP = off := by
  unfold State.firstCandidate
  have hm := Nat.mod_lt (s.loop.S + a) hp
  have hq := Nat.div_add_mod (s.loop.S + a) s.cfgP
  have hr := Nat.mod_lt (off + s.cfgP - (s.loop.S + a) % s.cfgP) hp
  refine ⟨by omega, by omega, ?_⟩
  generalize s.cfgP = P at *
  generalize hx : (s.loop.S + a) % P = x at *
  have e : (s.loop.S + (a + (off + P - x) % P)) % P = (x + (off + P - x)) % P := by
    rw [← Nat.add_assoc, Nat.add_mod, hx, Nat.mod_mod]
    rw [Nat.add_mod x (off + P - x), Nat.mod_eq_of_lt hm]
  rw [e, show x + (off + P - x) = off + P by omega, Nat.add_mod_right, Nat.mod_eq_of_lt ho]

theorem State.mem_candidatesFrom (s : State) (off : Nat) (n d : Nat) (c : Nat × Nat) :
    c ∈ s.candidatesFrom off n d ↔ ∃ i < n, c.1 = d + i * s.cfgP ∧ c.1 ≤ s.cfgH ∧
      c.2 = ((s.loop.S + c.1 - off) / s.cfgP) % s.cfgT := by
  induction n generalizing d with
  | zero => simp [State.candidatesFrom]
  | succ n ih =>
    unfold State.candidatesFrom
    split
    · rename_i hd
      constructor
      · intro h; cases h
      · rintro ⟨i, -, e, h, -⟩
        have : d ≤ d + i * s.cfgP := Nat.le_add_right _ _
        omega
    · rename_i hd
      rw [List.mem_cons, ih]
      constructor
      · rintro (rfl | ⟨i, hi, e, h, k⟩)
        · exact ⟨0, by omega, by simp, by simpa using hd, rfl⟩
        · exact ⟨i + 1, by omega, by rw [e, Nat.add_mul]; omega, h, k⟩
      · rintro ⟨i, hi, e, h, k⟩
        cases i with
        | zero =>
          left
          have : c.1 = d := by simpa using e
          rw [this] at k
          exact Prod.ext this k
        | succ i =>
          right
          exact ⟨i, by omega, by rw [e, Nat.add_mul]; omega, h, k⟩

theorem State.candidatesFrom_sorted (s : State) (off : Nat) (hp : 0 < s.cfgP) (n d : Nat) :
    (s.candidatesFrom off n d).Pairwise fun a b => a.1 < b.1 := by
  induction n generalizing d with
  | zero => simp [State.candidatesFrom]
  | succ n ih =>
    unfold State.candidatesFrom
    split
    · exact .nil
    · refine .cons (fun c hc => ?_) (ih _)
      obtain ⟨i, -, e, -, -⟩ := (s.mem_candidatesFrom off n _ c).1 hc
      dsimp only
      omega

/-- R125: the candidates come nearest first. -/
theorem State.candidates_sorted {s : State} (hp : 0 < s.cfgP) (lead : Nat) (sp : Span) :
    (s.candidates lead sp).Pairwise fun a b => a.1 < b.1 :=
  s.candidatesFrom_sorted _ hp _ _

/-- R125: the candidates are the trays (or pairs) of the loop whose aims lie from λ + G to H ahead of S, each
with that distance. -/
theorem State.mem_candidates {s : State} (hv : s.validated = true) (hS : s.loop.S < s.loopLength)
    (lead : Nat) (sp : Span) (d k : Nat) :
    (d, k) ∈ s.candidates lead sp ↔
      k < s.cfgT ∧ lead + s.cfgG ≤ d ∧ d ≤ s.cfgH ∧ s.fd s.loop.S (s.aimOf k sp) = d := by
  obtain ⟨hT, hP, -, hH⟩ := s.validated_geometry hv
  have hp : 0 < s.cfgP := by omega
  have ho := s.aimOffset_lt hp sp
  obtain ⟨f1, f2, f3⟩ := s.firstCandidate_spec (lead + s.cfgG) (s.aimOffset sp) hp ho
  unfold State.candidates
  rw [State.mem_candidatesFrom]
  generalize s.firstCandidate (lead + s.cfgG) (s.aimOffset sp) = d0 at *
  have aim : ∀ j, j < s.cfgT → s.aimOf j sp = j * s.cfgP + s.aimOffset sp ∧
      j * s.cfgP + s.aimOffset sp < s.loopLength := by
    intro j hj
    have : (j + 1) * s.cfgP ≤ s.cfgT * s.cfgP := Nat.mul_le_mul_right _ hj
    have hl : j * s.cfgP + s.aimOffset sp < s.loopLength := by
      unfold State.loopLength; rw [Nat.add_mul] at this; omega
    exact ⟨Nat.mod_eq_of_lt hl, hl⟩
  constructor
  · rintro ⟨i, -, e, h, hk0⟩
    simp only at e h hk0
    subst hk0
    have hm : (s.loop.S + d) % s.cfgP = s.aimOffset sp := by
      rw [e, ← Nat.add_assoc, Nat.add_mul_mod_self_right, f3]
    have hk : (s.loop.S + d - s.aimOffset sp) / s.cfgP = (s.loop.S + d) / s.cfgP := by
      have := Nat.div_add_mod (s.loop.S + d) s.cfgP
      rw [show s.loop.S + d - s.aimOffset sp = s.cfgP * ((s.loop.S + d) / s.cfgP) by omega,
        Nat.mul_div_cancel_left _ hp]
    rw [hk]
    have hlt := Nat.mod_lt ((s.loop.S + d) / s.cfgP) (show s.cfgT > 0 by omega)
    obtain ⟨ha, hb⟩ := aim _ hlt
    refine ⟨hlt, by omega, h, ?_⟩
    rw [ha]
    refine (fd_eq_iff hS hb (by omega)).2 ?_
    unfold State.loopLength
    rw [Nat.mul_comm s.cfgT s.cfgP, Nat.mod_mul, hm]
    rw [Nat.mul_comm s.cfgP]
    omega
  · rintro ⟨hk, hl, h, e⟩
    obtain ⟨ha, hb⟩ := aim k hk
    rw [ha] at e
    have hd : (s.loop.S + d) % s.loopLength = k * s.cfgP + s.aimOffset sp :=
      (fd_eq_iff hS hb (by omega)).1 e
    have hmod : (s.loop.S + d) % s.cfgP = s.aimOffset sp := by
      have : (s.loop.S + d) % s.loopLength % s.cfgP = (s.loop.S + d) % s.cfgP :=
        Nat.mod_mod_of_dvd _ (Dvd.intro_left _ rfl)
      rw [← this, hd, Nat.mul_add_mod_self_right, Nat.mod_eq_of_lt ho]
    have hdiv : ((s.loop.S + d) / s.cfgP) % s.cfgT = k := by
      have h1 : (s.loop.S + d) % (s.cfgP * s.cfgT) = k * s.cfgP + s.aimOffset sp := by
        rw [Nat.mul_comm]; exact hd
      rw [Nat.mod_mul, hmod] at h1
      have : s.cfgP * ((s.loop.S + d) / s.cfgP % s.cfgT) = s.cfgP * k := by
        rw [Nat.mul_comm s.cfgP k]; omega
      exact Nat.eq_of_mul_eq_mul_left hp this
    have hge : d0 ≤ d := by
      by_contra hn
      have h1 := Nat.div_add_mod (s.loop.S + d) s.cfgP
      have h2 := Nat.div_add_mod (s.loop.S + d0) s.cfgP
      have hle : (s.loop.S + d) / s.cfgP + 1 ≤ (s.loop.S + d0) / s.cfgP := by
        by_contra hh
        have : s.cfgP * ((s.loop.S + d0) / s.cfgP) ≤ s.cfgP * ((s.loop.S + d) / s.cfgP) :=
          Nat.mul_le_mul_left _ (by omega)
        omega
      have := Nat.mul_le_mul_left s.cfgP hle
      rw [Nat.mul_add] at this
      omega
    have h1 := Nat.div_add_mod (s.loop.S + d) s.cfgP
    have h2 := Nat.div_add_mod (s.loop.S + d0) s.cfgP
    have hle : (s.loop.S + d0) / s.cfgP ≤ (s.loop.S + d) / s.cfgP :=
      Nat.div_le_div_right (by omega)
    obtain ⟨i, hi⟩ := Nat.exists_eq_add_of_le hle
    have hdi : d = d0 + i * s.cfgP := by
      rw [hi, Nat.mul_add, Nat.mul_comm s.cfgP i] at h1
      omega
    refine ⟨i, ?_, hdi, h, ?_⟩
    · by_contra hn
      have : s.cfgT * s.cfgP ≤ i * s.cfgP := Nat.mul_le_mul_right _ (by omega)
      have hH' : s.cfgH < s.cfgT * s.cfgP := hH
      omega
    · have hk2 : (s.loop.S + d - s.aimOffset sp) / s.cfgP = (s.loop.S + d) / s.cfgP := by
        rw [show s.loop.S + d - s.aimOffset sp = s.cfgP * ((s.loop.S + d) / s.cfgP) by omega,
          Nat.mul_div_cancel_left _ hp]
      simp only
      rw [hk2, hdiv]

end Sys2Proof.Machine
end

