-- ==== Sys2Proof/Laws/Kept.lean ====
section
/-! SUPPORT. What the ending of plans, the placing of frames and the planning of parcels may change, said
once: `PlanWork s t` holds of every such operation from `s` to `t`, and composes. -/

namespace Sys2Proof.Machine

/-! ### Parcels and lanes -/

/-- What plan work leaves of a parcel record. -/
structure ParcelKept (p q : Parcel) : Prop where
  tag : q.tag = p.tag
  length : q.length = p.length
  span : q.span = p.span
  scan : q.scan = p.scan
  dest : q.dest = p.dest
  holdTick : q.holdTick = p.holdTick
  place : q.place = p.place ∨ q.place = .launching
  named : q.named = none → p.named = none
  misses : p.misses ≤ q.misses

theorem ParcelKept.refl (p : Parcel) : ParcelKept p p :=
  ⟨rfl, rfl, rfl, rfl, rfl, rfl, .inl rfl, id, le_rfl⟩

theorem ParcelKept.trans {p q r : Parcel} (h : ParcelKept p q) (k : ParcelKept q r) :
    ParcelKept p r where
  tag := k.tag.trans h.tag
  length := k.length.trans h.length
  span := k.span.trans h.span
  scan := k.scan.trans h.scan
  dest := k.dest.trans h.dest
  holdTick := k.holdTick.trans h.holdTick
  place := by
    rcases k.place with e | e
    · rw [e]; exact h.place
    · exact .inr e
  named := fun e => h.named (k.named e)
  misses := h.misses.trans k.misses

/-- The records of a later list are records of an earlier one, in order. -/
abbrev ParcelsKept (ps qs : List Parcel) : Prop :=
  List.SublistForall₂ (fun q p => ParcelKept p q) qs ps

theorem ParcelsKept.refl (ps : List Parcel) : ParcelsKept ps ps := by
  induction ps with
  | nil => exact .nil
  | cons p ps ih => exact .cons (.refl p) ih

theorem ParcelsKept.trans {ps qs rs : List Parcel} (h : ParcelsKept ps qs) (k : ParcelsKept qs rs) :
    ParcelsKept ps rs := by
  have : IsTrans Parcel (fun q p => ParcelKept p q) := ⟨fun _ _ _ a b => b.trans a⟩
  exact IsTrans.trans (r := List.SublistForall₂ fun q p => ParcelKept p q) _ _ _ k h

theorem ParcelsKept.map {f : Parcel → Parcel} (h : ∀ p, ParcelKept p (f p)) (ps : List Parcel) :
    ParcelsKept ps (ps.map f) := by
  induction ps with
  | nil => exact .nil
  | cons p ps ih => exact .cons (h p) ih

theorem ParcelsKept.filter (f : Parcel → Bool) (ps : List Parcel) : ParcelsKept ps (ps.filter f) := by
  induction ps with
  | nil => exact .nil
  | cons p ps ih =>
    rw [List.filter_cons]
    split
    · exact .cons (.refl p) ih
    · exact .cons_right ih

theorem ParcelsKept.length_le {ps qs : List Parcel} (h : ParcelsKept ps qs) : qs.length ≤ ps.length := by
  induction h with
  | nil => simp
  | cons _ _ ih => simpa using ih
  | cons_right _ ih => simp; omega

theorem ParcelsKept.exists_of_mem {ps qs : List Parcel} (h : ParcelsKept ps qs) {q : Parcel}
    (hq : q ∈ qs) : ∃ p ∈ ps, ParcelKept p q := by
  induction h with
  | nil => cases hq
  | cons e _ ih =>
    rcases List.mem_cons.1 hq with rfl | hq
    · exact ⟨_, List.mem_cons_self, e⟩
    · obtain ⟨p, hp, e⟩ := ih hq
      exact ⟨p, List.mem_cons_of_mem _ hp, e⟩
  | cons_right _ ih =>
    obtain ⟨p, hp, e⟩ := ih hq
    exact ⟨p, List.mem_cons_of_mem _ hp, e⟩

/-- What plan work leaves of a Lane Controller. -/
structure LaneKept (c d : LaneCtl) : Prop where
  tagCounter : d.tagCounter = c.tagCounter
  gapCount : d.gapCount = c.gapCount
  gapTest : d.gapTest = c.gapTest
  measure : d.measure = c.measure
  feed : d.feed = c.feed
  transfer : d.transfer = c.transfer
  early : d.early = c.early
  buttonFilter : d.buttonFilter = c.buttonFilter
  state : d.state = c.state ∨ ((c.state = .running ∨ c.state = .paused) ∧ d.state = .blocked)
  parcels : ParcelsKept c.parcels d.parcels
  whole : c.state ≠ .stopped → d.parcels.length = c.parcels.length

theorem LaneKept.refl (c : LaneCtl) : LaneKept c c :=
  ⟨rfl, rfl, rfl, rfl, rfl, rfl, rfl, rfl, .inl rfl, .refl _, fun _ => rfl⟩

theorem LaneKept.trans {c d e : LaneCtl} (h : LaneKept c d) (k : LaneKept d e) : LaneKept c e where
  tagCounter := k.tagCounter.trans h.tagCounter
  gapCount := k.gapCount.trans h.gapCount
  gapTest := k.gapTest.trans h.gapTest
  measure := k.measure.trans h.measure
  feed := k.feed.trans h.feed
  transfer := k.transfer.trans h.transfer
  early := k.early.trans h.early
  buttonFilter := k.buttonFilter.trans h.buttonFilter
  state := by
    rcases h.state with a | ⟨a, b⟩ <;> rcases k.state with x | ⟨x, y⟩ <;> simp_all
  parcels := h.parcels.trans k.parcels
  whole := fun n => by
    rw [k.whole, h.whole n]
    rcases h.state with a | ⟨_, b⟩
    · rwa [a]
    · simp [b]

/-- A lane that stands STOPPED stays STOPPED. -/
theorem LaneKept.stopped {c d : LaneCtl} (h : LaneKept c d) (e : c.state = .stopped) :
    d.state = .stopped := by
  rcases h.state with a | ⟨a, _⟩
  · rw [a, e]
  · simp [e] at a

/-! ### Reports -/

/-- Reports are appended to the FIFO, whole and within its room, and REPORT_LOST is never cleared. -/
structure RepGrows (p q : ReportPort) : Prop where
  fifo : ∃ bytes, q.fifo = p.fifo ++ bytes
  room : p.fifo.length ≤ Config.reportCapacity → q.fifo.length ≤ Config.reportCapacity
  lost : p.lost = true → q.lost = true

theorem RepGrows.refl (p : ReportPort) : RepGrows p p := ⟨⟨[], by simp⟩, id, id⟩

theorem RepGrows.trans {p q r : ReportPort} (h : RepGrows p q) (k : RepGrows q r) : RepGrows p r where
  fifo := by
    obtain ⟨a, ha⟩ := h.fifo
    obtain ⟨b, hb⟩ := k.fifo
    exact ⟨a ++ b, by rw [hb, ha, List.append_assoc]⟩
  room := fun e => k.room (h.room e)
  lost := fun e => k.lost (h.lost e)

/-- R152: what queueing one report does to the report FIFO. -/
theorem State.queueReport_rep (s : State) (r : Report) :
    (s.queueReport r).rep =
      if s.rep.fifo.length + r.bytes.length ≤ Config.reportCapacity then
        { s.rep with fifo := s.rep.fifo ++ r.bytes }
      else { s.rep with lost := true } := by
  unfold State.queueReport
  simp only [State.modRep_rep]

theorem State.queueReport_grows (s : State) (r : Report) : RepGrows s.rep (s.queueReport r).rep := by
  rw [State.queueReport_rep]
  split
  · exact ⟨⟨_, rfl⟩, fun _ => by simpa using ‹_›, id⟩
  · exact ⟨⟨[], by simp⟩, id, fun _ => rfl⟩

/-! ### Plan work -/

/-- What plan work may change, and what it leaves. -/
structure PlanWork (s t : State) : Prop where
  loop : t.loop = s.loop
  doubt : t.doubt = s.doubt
  pace : t.pace = s.pace
  port : t.port = s.port
  table : t.table = s.table
  pins : t.pins = s.pins
  outs : t.outs = s.outs
  tick : t.tick = s.tick
  pending : t.pending = s.pending
  trays : t.trays.length = s.trays.length
  line : t.line = s.line ∨ t.line = s.line.newHead
  queue : s.txq.length ≤ Config.txCapacity → t.txq.length ≤ Config.txCapacity
  disabled : s.line.enabled = false → s.mapInUse = false → s.txq = [] → t.txq = []
  rep : RepGrows s.rep t.rep
  lanes : ∀ l, LaneKept (s.lane l) (t.lane l)
  idle : s.locked = false → s.trig = .all none → s.aims = .all none →
    t.trig = .all none ∧ t.aims = .all none
  noPlans : s.plans = .all none → s.mapInUse = false →
    t.plans = .all none ∧ ∀ l, (s.lane l).parcels = [] → (t.lane l).launch = (s.lane l).launch

theorem PlanWork.refl (s : State) : PlanWork s s :=
  ⟨rfl, rfl, rfl, rfl, rfl, rfl, rfl, rfl, rfl, rfl, .inl rfl, id, fun _ _ h => h, .refl _,
    fun _ => .refl _, fun _ h k => ⟨h, k⟩, fun h _ => ⟨h, fun _ _ => rfl⟩⟩

theorem PlanWork.locked {s t : State} (h : PlanWork s t) : t.locked = s.locked := by
  simp [State.locked, h.loop]

theorem PlanWork.mapInUse {s t : State} (h : PlanWork s t) : t.mapInUse = s.mapInUse := by
  simp [State.mapInUse, h.table]

theorem PlanWork.online {s t : State} (h : PlanWork s t) : t.online = s.online := by
  simp [State.online, h.table]

theorem PlanWork.cw {s t : State} (h : PlanWork s t) (i : Nat) : t.cw i = s.cw i := by
  simp [State.cw, h.table]

theorem PlanWork.enabled {s t : State} (h : PlanWork s t) : t.line.enabled = s.line.enabled := by
  rcases h.line with e | e <;> rw [e]
  rfl

theorem ParcelsKept.nil_of_nil {qs : List Parcel} (h : ParcelsKept [] qs) : qs = [] := by
  have := h.length_le
  simpa using this

theorem PlanWork.trans {s t u : State} (h : PlanWork s t) (k : PlanWork t u) : PlanWork s u where
  loop := k.loop.trans h.loop
  doubt := k.doubt.trans h.doubt
  pace := k.pace.trans h.pace
  port := k.port.trans h.port
  table := k.table.trans h.table
  pins := k.pins.trans h.pins
  outs := k.outs.trans h.outs
  tick := k.tick.trans h.tick
  pending := k.pending.trans h.pending
  trays := k.trays.trans h.trays
  line := by
    rcases h.line with a | a <;> rcases k.line with b | b <;> rw [b, a]
    · exact .inl rfl
    · exact .inr rfl
    · exact .inr rfl
    · exact .inr rfl
  queue := fun e => k.queue (h.queue e)
  disabled := fun a b c =>
    k.disabled (h.enabled.trans a) (h.mapInUse.trans b) (h.disabled a b c)
  rep := h.rep.trans k.rep
  lanes := fun l => (h.lanes l).trans (k.lanes l)
  idle := fun a b c =>
    k.idle (h.locked.trans a) (h.idle a b c).1 (h.idle a b c).2
  noPlans := fun a b => by
    obtain ⟨x, y⟩ := h.noPlans a b
    obtain ⟨z, w⟩ := k.noPlans x (h.mapInUse.trans b)
    refine ⟨z, fun l e => ?_⟩
    rw [w l, y l e]
    have := (h.lanes l).parcels
    rw [e] at this
    exact this.nil_of_nil

end Sys2Proof.Machine
end

