-- ==== Sys2Proof/Laws/PlanOps.lean ====
section
/-! SUPPORT. The shared operations of Ops, Lanes and PlanEnd are plan work. -/

namespace Sys2Proof.Machine

/-! ### Single fields -/

theorem State.queueReport_planWork (s : State) (r : Report) : PlanWork s (s.queueReport r) :=
  { PlanWork.refl s with rep := s.queueReport_grows r }

theorem State.setTrays_planWork (s : State) {v : List TrayRec} (h : v.length = s.trays.length) :
    PlanWork s (s.setTrays v) :=
  { PlanWork.refl s with trays := h }

theorem State.modTray_planWork (s : State) (k : Nat) (f : TrayRec → TrayRec) :
    PlanWork s (s.modTray k f) :=
  { PlanWork.refl s with trays := s.modTray_length k f }

theorem State.setFreeCount_planWork (s : State) (n : Nat) : PlanWork s (s.setFreeCount n) :=
  { PlanWork.refl s with }

theorem State.bumpFree_planWork (s : State) : PlanWork s s.bumpFree := s.setFreeCount_planWork _

theorem State.afterOrder_planWork {α : Type} (s : State) (l : List α) :
    PlanWork s (s.afterOrder l) := by
  unfold State.afterOrder
  split
  · exact .refl s
  · exact s.setFreeCount_planWork _

theorem State.modPlanner_planWork (s : State) (f : Planner → Planner) :
    PlanWork s (s.modPlanner f) :=
  { PlanWork.refl s with }

theorem State.newHead_planWork (s : State) : PlanWork s (s.modLine LineIf.newHead) :=
  { PlanWork.refl s with line := .inr rfl }

theorem State.setTxq_planWork (s : State) {v : List TxEntry}
    (h : s.txq.length ≤ Config.txCapacity → v.length ≤ Config.txCapacity)
    (h0 : s.line.enabled = false → s.mapInUse = false → s.txq = [] → v = []) :
    PlanWork s (s.setTxq v) :=
  { PlanWork.refl s with queue := h, disabled := h0 }

theorem State.modLane_planWork (s : State) (l : Lane) {f : LaneCtl → LaneCtl}
    (h : LaneKept (s.lane l) (f (s.lane l)))
    (h0 : s.plans = .all none → s.mapInUse = false → (s.lane l).parcels = [] →
      (f (s.lane l)).launch = (s.lane l).launch) : PlanWork s (s.modLane l f) :=
  { PlanWork.refl s with
    lanes := fun m => by
      by_cases e : m = l
      · subst e; simpa using h
      · rw [s.modLane_lane_ne f e]; exact .refl _
    noPlans := fun a b => ⟨a, fun m c => by
      by_cases e : m = l
      · subst e; simpa using h0 a b c
      · rw [s.modLane_lane_ne f e]⟩ }

theorem State.setPlan_planWork (s : State) (l : Lane) (sl : Slot) (p : Option Plan)
    (h : (s.plan l sl).isSome ∨ p = none ∨ s.mapInUse = true) : PlanWork s (s.setPlan l sl p) :=
  { PlanWork.refl s with
    noPlans := fun a b => by
      rcases h with h | h | h
      · simp [State.plan, a] at h
      · subst h; exact ⟨by simp [a], fun _ _ => rfl⟩
      · simp [b] at h }

theorem State.clearTrig_planWork (s : State) (l : Lane) (sl : Slot) :
    PlanWork s (s.setTrig (s.trig.set l sl none)) :=
  { PlanWork.refl s with idle := fun _ b c => ⟨by simp [b], c⟩ }

theorem State.clearAim_planWork (s : State) (l : Lane) (sl : Slot) :
    PlanWork s (s.setAims (s.aims.set l sl none)) :=
  { PlanWork.refl s with idle := fun _ b c => ⟨b, by simp [c]⟩ }

theorem State.setTrig_planWork (s : State) (v : Four (Option Nat)) (h : s.locked = true) :
    PlanWork s (s.setTrig v) :=
  { PlanWork.refl s with idle := fun a => by simp [h] at a }

theorem State.setAims_planWork (s : State) (v : Four (Option Nat)) (h : s.locked = true) :
    PlanWork s (s.setAims v) :=
  { PlanWork.refl s with idle := fun a => by simp [h] at a }

/-! ### Folds and orders -/

/-- A fold of plan work is plan work. -/
theorem PlanWork.foldl {α : Type} {f : State → α → State} (h : ∀ s a, PlanWork s (f s a)) :
    ∀ (as : List α) (s : State), PlanWork s (as.foldl f s)
  | [], s => .refl s
  | a :: as, s => (h s a).trans (PlanWork.foldl h as (f s a))

/-! ### Tray records -/

theorem State.recond_planWork (s : State) (k : Nat) (c : Cond) (seen : Seen) (holder : Option Nat) :
    PlanWork s (s.recond k c seen holder) := by
  unfold State.recond
  split
  · exact .refl s
  · dsimp only
    split
    · exact (s.modTray_planWork _ _).trans (State.modTray_planWork _ _ _)
    · exact s.modTray_planWork _ _

theorem State.setSeen_planWork (s : State) (k : Nat) (v : Seen) : PlanWork s (s.setSeen k v) :=
  s.modTray_planWork _ _

theorem State.pairUp_planWork (s : State) (k j : Nat) : PlanWork s (s.pairUp k j) :=
  (s.modTray_planWork _ _).trans (State.modTray_planWork _ _ _)

theorem State.giveBack_planWork (s : State) (ref : PlanRef) (c : Cond) (k : Nat) :
    PlanWork s (s.giveBack ref c k) := by
  unfold State.giveBack
  split
  · split
    · exact s.recond_planWork _ _ _ _
    · exact .refl s
  · exact .refl s

theorem State.giveBackAll_planWork (s : State) (ref : PlanRef) (c : Cond) (ks : List Nat) :
    PlanWork s (s.giveBackAll ref c ks) :=
  PlanWork.foldl (fun s k => s.giveBack_planWork ref c k) ks s

/-! ### Parcels and lanes -/

theorem LaneCtl.modParcel_kept (c : LaneCtl) (t : Tag) {f : Parcel → Parcel}
    (h : ∀ p, ParcelKept p (f p)) : LaneKept c (c.modParcel t f) :=
  { LaneKept.refl c with
    parcels := ParcelsKept.map (fun p => by
      split
      · exact h p
      · exact .refl p) _
    whole := fun _ => by simp [LaneCtl.modParcel] }

theorem State.modParcel_planWork (s : State) (l : Lane) (t : Tag) {f : Parcel → Parcel}
    (h : ∀ p, ParcelKept p (f p)) : PlanWork s (s.modParcel l t f) :=
  s.modLane_planWork l (LaneCtl.modParcel_kept _ t h) fun _ _ _ => rfl

theorem State.rejectAll_planWork (s : State) (l : Lane) (reason : RejectReason) (tags : List Tag) :
    PlanWork s (s.rejectAll l reason tags) :=
  PlanWork.foldl (fun s _ => s.queueReport_planWork _) tags s

theorem State.rejectAll_lanes (s : State) (l : Lane) (reason : RejectReason) (tags : List Tag) :
    (s.rejectAll l reason tags).lanes = s.lanes := by
  unfold State.rejectAll
  induction tags generalizing s with
  | nil => rfl
  | cons t ts ih => simp only [List.foldl_cons]; rw [ih]; simp

theorem LaneCtl.name_kept (c : LaneCtl) (reason : BlockReason) (tags : List Tag) :
    LaneKept c (c.name reason tags) :=
  { LaneKept.refl c with
    parcels := ParcelsKept.map (fun p => by
      split
      · exact { ParcelKept.refl p with named := fun e => by simp at e }
      · exact .refl p) _
    whole := fun _ => by simp [LaneCtl.name] }

/-- R99: a block is plan work, on a lane that holds records or while the map is in use. -/
theorem State.takeBlock_planWork (s : State) (l : Lane) (reason : BlockReason) (tags rejected : List Tag)
    (h : (s.lane l).parcels ≠ [] ∨ s.mapInUse = true) :
    PlanWork s (s.takeBlock l reason tags rejected) := by
  unfold State.takeBlock
  generalize hs1 : (s.modLane l fun c => c.name reason tags).rejectAll l reason.toReject rejected = s1
  have w1 : PlanWork s s1 := by
    rw [← hs1]
    exact (s.modLane_planWork l (LaneCtl.name_kept _ _ _) fun _ _ _ => rfl).trans
      (State.rejectAll_planWork _ _ _ _)
  have hl : (s1.lane l) = (s.lane l).name reason tags := by
    rw [← hs1, State.lane, State.rejectAll_lanes]; simp [State.lane]
  have hst : (s1.lane l).state = (s.lane l).state := by rw [hl]; rfl
  have hpc : (s.lane l).parcels = [] → s1.mapInUse = false → False := fun a b => by
    rcases h with h | h
    · exact h a
    · rw [w1.mapInUse, h] at b; cases b
  have hpc1 : (s1.lane l).parcels = [] → (s.lane l).parcels = [] := fun a => by
    rw [hl] at a; simpa [LaneCtl.name] using a
  dsimp only
  split
  · rename_i e
    unfold State.enterLane
    simp only [reduceCtorEq, if_false]
    refine w1.trans ((s1.modLane_planWork l
      { LaneKept.refl _ with state := .inr ⟨.inl (hst.trans e), rfl⟩, whole := fun _ => rfl } fun _ _ _ => rfl).trans
        (State.queueReport_planWork _ _))
  · rename_i e
    unfold State.enterLane
    simp only [reduceCtorEq, if_false]
    refine w1.trans ((s1.modLane_planWork l
      { LaneKept.refl _ with state := .inr ⟨.inr (hst.trans e), rfl⟩, whole := fun _ => rfl } fun _ _ _ => rfl).trans
        (State.queueReport_planWork _ _))
  · exact w1.trans ((s1.modLane_planWork l { LaneKept.refl _ with } fun _ _ _ => rfl).trans
      (State.queueReport_planWork _ _))
  · rename_i e
    exact w1.trans (s1.modLane_planWork l
      { LaneKept.refl _ with
        parcels := ParcelsKept.filter _ _
        whole := fun n => absurd (hst.trans e) n }
      fun _ b c => (hpc (hpc1 c) b).elim)
  · exact w1

theorem List.find?_ne_nil {α : Type} {p : α → Bool} {l : List α} {a : α} (h : l.find? p = some a) :
    l ≠ [] := by
  rintro rfl; cases h

/-- R98: a counted miss is plan work. -/
theorem State.addMiss_planWork (s : State) (l : Lane) (t : Tag) : PlanWork s (s.addMiss l t) := by
  unfold State.addMiss
  have w : PlanWork s (s.modParcel l t fun r => { r with misses := r.misses + 1 }) :=
    s.modParcel_planWork l t fun p => { ParcelKept.refl p with misses := Nat.le_succ _ }
  dsimp only
  split
  · rename_i r hr
    split
    · exact w.trans (State.takeBlock_planWork _ _ _ _ _ (.inl (List.find?_ne_nil hr)))
    · exact w
  · exact w

/-- R96: an aborted launch is plan work. -/
theorem State.abortLaunch_planWork (s : State) (l : Lane) (h : s.mapInUse = true) :
    PlanWork s (s.abortLaunch l) := by
  unfold State.abortLaunch
  have w : PlanWork s (s.modLane l fun c =>
      { c with launch := c.launch.map fun e => { e with aborted := true } }) :=
    s.modLane_planWork l { LaneKept.refl _ with } fun _ b => by simp [h] at b
  dsimp only
  split
  · exact w.trans (State.takeBlock_planWork _ _ _ _ _ (.inr (w.mapInUse.trans h)))
  · exact w

/-! ### The transmit queue -/

theorem State.dropEntry_planWork (s : State) (i : Nat) : PlanWork s (s.dropEntry i) := by
  unfold State.dropEntry
  have w : PlanWork s (s.setTxq (s.txq.eraseIdx i)) :=
    s.setTxq_planWork (fun h => (List.length_eraseIdx_le ..).trans h) fun _ _ e => by simp [e]
  dsimp only
  split
  · exact w.trans (State.newHead_planWork _)
  · exact w

theorem State.dropEntry_txq (s : State) (i : Nat) : (s.dropEntry i).txq = s.txq.eraseIdx i := by
  unfold State.dropEntry
  dsimp only
  split <;> simp

theorem State.appendEntry_txq (s : State) (e : TxEntry) : (s.appendEntry e).txq = s.txq ++ [e] := by
  unfold State.appendEntry
  dsimp only
  split <;> simp

/-- An entry appended after plan work that left room is plan work (R53). -/
theorem PlanWork.append {s u : State} (w : PlanWork s u) (e : TxEntry)
    (h : s.txq.length ≤ Config.txCapacity → u.txq.length < Config.txCapacity)
    (h0 : s.line.enabled = true ∨ s.mapInUse = true) : PlanWork s (u.appendEntry e) := by
  have hline : (u.appendEntry e).line = s.line ∨ (u.appendEntry e).line = s.line.newHead := by
    have e1 : (u.appendEntry e).line = u.line ∨ (u.appendEntry e).line = u.line.newHead := by
      unfold State.appendEntry; dsimp only; split <;> simp
    rcases w.line with a | a <;> rcases e1 with b | b <;> rw [b, a]
    · exact .inl rfl
    · exact .inr rfl
    · exact .inr rfl
    · exact .inr rfl
  have same : ∀ {α : Type} (g : State → α), (∀ (x : State) v, g (x.setTxq v) = g x) →
      (∀ (x : State) f, g (x.modLine f) = g x) → g (u.appendEntry e) = g u := fun g h1 h2 => by
    unfold State.appendEntry; dsimp only; split <;> simp [h1, h2]
  have lanes := same State.lanes (by simp) (by simp)
  exact
    { loop := (same State.loop (by simp) (by simp)).trans w.loop
      doubt := (same State.doubt (by simp) (by simp)).trans w.doubt
      pace := (same State.pace (by simp) (by simp)).trans w.pace
      port := (same State.port (by simp) (by simp)).trans w.port
      table := (same State.table (by simp) (by simp)).trans w.table
      pins := (same State.pins (by simp) (by simp)).trans w.pins
      outs := (same State.outs (by simp) (by simp)).trans w.outs
      tick := (same State.tick (by simp) (by simp)).trans w.tick
      pending := (same State.pending (by simp) (by simp)).trans w.pending
      trays := (congrArg List.length (same State.trays (by simp) (by simp))).trans w.trays
      line := hline
      queue := fun a => by rw [u.appendEntry_txq e]; simpa using h a
      disabled := fun a b _ => by rcases h0 with h0 | h0 <;> simp_all
      rep := by rw [same State.rep (by simp) (by simp)]; exact w.rep
      lanes := fun l => by
        have := w.lanes l
        simp only [State.lane, lanes] at this ⊢
        exact this
      idle := by
        rw [same State.trig (by simp) (by simp), same State.aims (by simp) (by simp)]
        exact w.idle
      noPlans := fun a b => by
        rw [same State.plans (by simp) (by simp)]
        refine ⟨(w.noPlans a b).1, fun l c => ?_⟩
        have := (w.noPlans a b).2 l c
        simp only [State.lane, lanes] at this ⊢
        exact this }

theorem State.reportDropped_planWork (s : State) (e : TxEntry) : PlanWork s (s.reportDropped e) :=
  s.queueReport_planWork _

/-- R56: the withdrawal of a queued CLAIM is plan work. -/
theorem State.withdrawClaim_planWork (s : State) (ref : PlanRef) : PlanWork s (s.withdrawClaim ref) := by
  unfold State.withdrawClaim
  split
  · exact .refl s
  · split
    · split
      · exact s.dropEntry_planWork _
      · exact s.setTxq_planWork (by simp) fun _ _ e => by simp [e]
    · exact .refl s

/-- The oldest waiting entry stands inside the queue. -/
theorem oldestWaiting_lt {n i : Nat} {q : TxEntry} {es : List TxEntry}
    (h : oldestWaiting n es = some (i, q)) : n ≤ i ∧ i < n + es.length := by
  induction es generalizing n with
  | nil => cases h
  | cons e es ih =>
    rw [oldestWaiting] at h
    split at h
    · cases h; simp
    · have := ih h; simp; omega

/-! ### The end of a plan -/

theorem State.clearSlot_planWork (s : State) (l : Lane) (sl : Slot) : PlanWork s (s.clearSlot l sl) := by
  unfold State.clearSlot
  exact ((s.setPlan_planWork l sl none (.inr (.inl rfl))).trans
    (State.clearTrig_planWork (s.setPlan l sl none) l sl)).trans
      (State.clearAim_planWork ((s.setPlan l sl none).setTrig (s.trig.set l sl none)) l sl)

theorem State.unplan_planWork (s : State) (l : Lane) (sl : Slot) (p : Plan) :
    PlanWork s (s.unplan l sl p) :=
  ((s.clearSlot_planWork l sl).trans (State.giveBackAll_planWork _ _ _ _)).trans
    (State.modParcel_planWork _ _ _ fun q => { ParcelKept.refl q with })

theorem State.countMiss_planWork (s : State) (e : PlanEnding) (l : Lane) (t : Tag) :
    PlanWork s (s.countMiss e l t) := by
  unfold State.countMiss
  split
  · exact s.addMiss_planWork _ _
  · exact .refl s

/-- Placing a frame and ending a plan are plan work, at every depth (R53, R55, R133 to R135). -/
theorem work_planWork : ∀ (n : Nat) (w : Work) (s : State), PlanWork s (work n w s)
  | 0, w, s => by rw [work]; exact .refl s
  | n + 1, .place e, s => by
    rw [work]
    split
    · exact .refl s
    rename_i hen
    have hen : s.line.enabled = true := by simpa using hen
    split
    · exact .refl s
    split
    · exact (PlanWork.refl s).append e (fun _ => ‹_›) (.inl hen)
    split
    · rename_i i q _
      split
      · exact (s.dropEntry_planWork i).trans ((work_planWork n _ _).trans (work_planWork n _ _))
      · exact (s.dropEntry_planWork i).trans (work_planWork n _ _)
    · split
      · rename_i i q hi
        refine ((s.dropEntry_planWork i).trans (State.reportDropped_planWork _ q)).append e
          (fun h => ?_) (.inl hen)
        have := oldestWaiting_lt hi
        have e1 : ((s.dropEntry i).reportDropped q).txq = s.txq.eraseIdx i := s.dropEntry_txq i
        rw [e1, List.length_eraseIdx_of_lt (by omega)]
        omega
      · exact .refl s
  | n + 1, .ending e l sl, s => by
    rw [work]
    split
    · exact .refl s
    rename_i p hp
    have w1 := s.unplan_planWork l sl p
    have w2 : PlanWork (s.unplan l sl p)
        (if p.state = .tentative then (s.unplan l sl p).withdrawClaim { lane := l, tag := p.tag }
        else work n (.place (plainEntry .release p.target p.span)) (s.unplan l sl p)) := by
      split
      · exact State.withdrawClaim_planWork _ _
      · exact work_planWork n _ _
    have w3 := (w1.trans w2).trans (State.countMiss_planWork _ e l p.tag)
    dsimp only
    split
    · exact w3.trans (work_planWork n _ _)
    · exact w3

theorem State.placeFrame_planWork (s : State) (kind : FrameKind) (tray : Nat) (span : Span) :
    PlanWork s (s.placeFrame kind tray span) := work_planWork _ _ _

theorem State.endPlan_planWork (s : State) (e : PlanEnding) (l : Lane) (sl : Slot) :
    PlanWork s (s.endPlan e l sl) := work_planWork _ _ _

theorem State.endRef_planWork (s : State) (e : PlanEnding) (ref : PlanRef) :
    PlanWork s (s.endRef e ref) := by
  unfold State.endRef
  split
  · exact s.endPlan_planWork _ _ _
  · exact .refl s

theorem State.withdrawSlot_planWork (s : State) (l : Lane) (sl : Slot) :
    PlanWork s (s.withdrawSlot l sl) := by
  unfold State.withdrawSlot
  split
  · split
    · exact .refl s
    · exact s.endPlan_planWork _ _ _
  · exact .refl s

theorem State.withdrawSlots_planWork (s : State) (l : Lane) (slots : List Slot) :
    PlanWork s (s.withdrawSlots l slots) :=
  PlanWork.foldl (fun s sl => s.withdrawSlot_planWork l sl) slots s

theorem State.withdrawAll_planWork (s : State) : PlanWork s s.withdrawAll :=
  (s.withdrawSlots_planWork _ _).trans (State.withdrawSlots_planWork _ _ _)

theorem State.succeed_planWork (s : State) (l : Lane) (sl : Slot) : PlanWork s (s.succeed l sl) := by
  unfold State.succeed
  split
  · exact (s.clearSlot_planWork l sl).trans (State.giveBackAll_planWork _ _ _ _)
  · exact .refl s

end Sys2Proof.Machine
end

