-- ==== Sys2Proof/Laws/MapOps.lean ====
section
/-! SUPPORT. The operations of the Tray Map, the Launch Planner and the newly reached positions are plan
work. -/

namespace Sys2Proof.Machine

/-! ### Plans found -/

theorem State.slotOf?_isSome {s : State} {l : Lane} {t : Tag} {sl : Slot}
    (h : s.slotOf? l t = some sl) : (s.plan l sl).isSome := by
  unfold State.slotOf? at h
  split at h
  · rename_i p q e
    split at h
    · cases h; rw [e]; rfl
    · split at h
      · rename_i q e'
        split at h
        · cases h; rw [e']; rfl
        · cases h
      · cases h
  · rename_i q e e'
    split at h
    · cases h; rw [e']; rfl
    · cases h
  · cases h

theorem State.plans_ne_of_plan {s : State} {l : Lane} {sl : Slot} (h : (s.plan l sl).isSome) :
    s.plans ≠ .all none := by
  intro e
  simp [State.plan, e] at h

/-- Changing a plan that may be there is plan work. -/
theorem State.mapPlan_planWork (s : State) (l : Lane) (sl : Slot) (f : Plan → Plan) :
    PlanWork s (s.setPlan l sl ((s.plan l sl).map f)) := by
  refine s.setPlan_planWork l sl _ ?_
  cases h : s.plan l sl
  · exact .inr (.inl rfl)
  · exact .inl rfl

/-! ### Tray Map -/

theorem State.endPlanOf_planWork (s : State) (e : PlanEnding) (r : TrayRec) :
    PlanWork s (s.endPlanOf e r) := by
  unfold State.endPlanOf
  split
  · exact s.endRef_planWork _ _
  · exact .refl s

theorem State.markDouble_planWork (s : State) (r : TrayRec) : PlanWork s (s.markDouble r) := by
  unfold State.markDouble
  split
  · split
    · rename_i ref _ _ sl hs
      have hp := State.slotOf?_isSome hs
      refine (s.mapPlan_planWork _ sl _).trans
        (State.modLane_planWork _ _ { LaneKept.refl _ with } fun a => ?_)
      exact absurd a (State.plans_ne_of_plan (l := ref.lane) (sl := sl) (by
        rw [State.setPlan_plan_self]; simpa using hp))
    · exact .refl s
  · exact .refl s

theorem State.checkNotLevel_planWork (s : State) (k : Nat) (r : TrayRec) :
    PlanWork s (s.checkNotLevel k r) := by
  unfold State.checkNotLevel
  split
  · exact s.setSeen_planWork _ _
  · have w := ((s.recond_planWork k .defective (sampleSeen s.pins.chk) none).trans
      (State.placeFrame_planWork _ .defect k .one)).trans
        (State.queueReport_planWork _ (.defect k .own))
    dsimp only
    split
    · split
      · exact (w.trans (State.endPlanOf_planWork _ _ _)).trans (State.queueReport_planWork _ _)
      · exact w.trans (State.endPlanOf_planWork _ _ _)
    · exact w

theorem State.checkAbort_planWork (s : State) (k : Nat) (r : TrayRec) (h : s.mapInUse = true) :
    PlanWork s (s.checkAbort k r) := by
  unfold State.checkAbort
  have w := s.recond_planWork k .stray .occupied none
  dsimp only
  split
  · rename_i ref _
    exact ((w.trans (State.abortLaunch_planWork _ ref.lane (w.mapInUse.trans h))).trans
      (State.placeFrame_planWork _ _ _ _)).trans (State.endPlanOf_planWork _ _ _)
  · exact (w.trans (State.placeFrame_planWork _ _ _ _)).trans (State.endPlanOf_planWork _ _ _)

theorem State.checkOccupied_planWork (s : State) (k : Nat) (r : TrayRec) (h : s.mapInUse = true) :
    PlanWork s (s.checkOccupied k r) := by
  unfold State.checkOccupied
  split
  · exact (s.recond_planWork _ _ _ _).trans (State.placeFrame_planWork _ _ _ _)
  · exact (s.recond_planWork _ _ _ _).trans (State.placeFrame_planWork _ _ _ _)
  · exact s.setSeen_planWork _ _
  · exact s.setSeen_planWork _ _
  · exact s.setSeen_planWork _ _
  · exact s.setSeen_planWork _ _
  · exact s.setSeen_planWork _ _
  · exact s.setSeen_planWork _ _
  · split
    · split
      · exact ((s.setSeen_planWork _ _).trans (State.markDouble_planWork _ _)).trans
          (State.queueReport_planWork _ _)
      · exact s.checkAbort_planWork k r h
    · exact ((s.recond_planWork _ _ _ _).trans (State.placeFrame_planWork _ _ _ _)).trans
        (State.endPlanOf_planWork _ _ _)

theorem State.checkFree_planWork (s : State) (k : Nat) (r : TrayRec) :
    PlanWork s (s.checkFree k r) := by
  unfold State.checkFree
  split
  · exact (s.queueReport_planWork _).trans (State.recond_planWork _ _ _ _ _)
  · exact s.recond_planWork _ _ _ _
  all_goals exact s.setSeen_planWork _ _

theorem State.checkEvent_planWork (s : State) (k : Nat) : PlanWork s (s.checkEvent k) := by
  unfold State.checkEvent
  split
  · split
    · split
      · exact s.checkNotLevel_planWork _ _
      · split
        · exact s.checkOccupied_planWork _ _ ‹_›
        · exact s.checkFree_planWork _ _
    · exact .refl s
  · exact .refl s

theorem State.arrival_planWork (s : State) (k : Nat) : PlanWork s (s.arrival k) := by
  unfold State.arrival
  split
  · split
    · split
      · exact .refl s
      · exact .refl s
      · exact .refl s
      · exact s.recond_planWork _ _ _ _
    · exact .refl s
  · exact .refl s

theorem State.zoneExitRecord_planWork (s : State) (k : Nat) : PlanWork s (s.zoneExitRecord k) := by
  unfold State.zoneExitRecord
  split
  · split
    · exact s.setSeen_planWork _ _
    · exact .refl s
    · exact s.recond_planWork _ _ _ _
  · exact .refl s

theorem State.dropStale_planWork (s : State) (e : TxEntry) : PlanWork s (s.dropStale e) := by
  unfold State.dropStale
  split
  · rename_i i _
    have w := s.dropEntry_planWork i
    dsimp only
    split
    · split
      · exact w.trans (State.endRef_planWork _ _ _)
      · exact w
    · exact w.trans (State.reportDropped_planWork _ _)
  · exact .refl s

theorem State.dropStaleAll_planWork (s : State) (k : Nat) : PlanWork s (s.dropStaleAll k) :=
  (s.afterOrder_planWork _).trans (PlanWork.foldl State.dropStale_planWork _ _)

theorem State.zoneExit_planWork (s : State) (k : Nat) : PlanWork s (s.zoneExit k) := by
  unfold State.zoneExit
  split
  · split
    · split
      · exact (s.bumpFree_planWork.trans (State.zoneExitRecord_planWork _ _)).trans
          (State.dropStaleAll_planWork _ _)
      · exact (s.bumpFree_planWork.trans (State.dropStaleAll_planWork _ _)).trans
          (State.zoneExitRecord_planWork _ _)
    · exact (s.zoneExitRecord_planWork _).trans (State.dropStaleAll_planWork _ _)
  · exact .refl s

theorem State.lockLostTrays_planWork (s : State) : PlanWork s s.lockLostTrays :=
  s.setTrays_planWork (by simp)

/-! ### Frames heard -/

theorem State.holdRecord_planWork (s : State) (f : FrameData) (k : Nat) :
    PlanWork s (s.holdRecord f k) := by
  unfold State.holdRecord
  split
  · split
    · exact s.recond_planWork _ _ _ _
    · exact .refl s
  · exact .refl s

theorem State.loseRace_planWork (s : State) (r : Option TrayRec) : PlanWork s (s.loseRace r) := by
  unfold State.loseRace
  split
  · split
    · exact s.endPlanOf_planWork _ _
    · exact .refl s
  · exact .refl s

theorem State.applyClaim_planWork (s : State) (f : FrameData) : PlanWork s (s.applyClaim f) := by
  unfold State.applyClaim
  split
  · split
    · split
      · exact (s.holdRecord_planWork _ _).trans (State.loseRace_planWork _ _)
      · exact .refl s
    · exact .refl s
  · dsimp only
    split
    · split
      · exact .refl s
      · have w := (s.holdRecord_planWork f f.tray).trans
          (State.holdRecord_planWork _ f (s.nextTray f.tray))
        split
        · exact ((w.trans (State.pairUp_planWork _ _ _)).trans (State.loseRace_planWork _ _)).trans
            (State.loseRace_planWork _ _)
        · exact (w.trans (State.loseRace_planWork _ _)).trans (State.loseRace_planWork _ _)
    · exact .refl s

theorem State.releaseRecord_planWork (s : State) (f : FrameData) (k : Nat) :
    PlanWork s (s.releaseRecord f k) := by
  unfold State.releaseRecord
  split
  · split
    · exact s.recond_planWork _ _ _ _
    · exact .refl s
  · exact .refl s

theorem State.takenRecord_planWork (s : State) (c : Cond) (f : FrameData) (k : Nat) :
    PlanWork s (s.takenRecord c f k) := by
  unfold State.takenRecord
  split
  · split
    · exact s.recond_planWork _ _ _ _
    · exact s.recond_planWork _ _ _ _
    · exact s.recond_planWork _ _ _ _
    · split
      · exact (s.markDouble_planWork _).trans (State.queueReport_planWork _ _)
      · exact (s.recond_planWork _ _ _ _).trans (State.endPlanOf_planWork _ _ _)
    all_goals exact .refl s
  · exact .refl s

theorem State.defectRecord_planWork (s : State) (k : Nat) : PlanWork s (s.defectRecord k) := by
  unfold State.defectRecord
  split
  · rename_i r _
    split
    · exact .refl s
    · have w := (s.recond_planWork k .defective r.seen none).trans
        (State.queueReport_planWork _ (.defect k .heard))
      dsimp only
      split
      · split
        · exact (w.trans (State.endPlanOf_planWork _ _ _)).trans (State.queueReport_planWork _ _)
        · exact w.trans (State.endPlanOf_planWork _ _ _)
      · exact w
  · exact .refl s

theorem State.pairIf_planWork (s : State) (c : Cond) (f : FrameData) : PlanWork s (s.pairIf c f) := by
  unfold State.pairIf
  split
  · exact .refl s
  · split
    · exact s.pairUp_planWork _ _
    · exact .refl s

theorem State.applyTaken_planWork (s : State) (c : Cond) (f : FrameData) :
    PlanWork s (s.applyTaken c f) := by
  unfold State.applyTaken
  split
  · exact (PlanWork.foldl (fun s k => s.takenRecord_planWork c f k) _ s).trans
      (State.pairIf_planWork _ _ _)
  · exact .refl s

/-- R52, R68: a frame applied is plan work. -/
theorem State.applyFrame_planWork (s : State) (f : FrameData) : PlanWork s (s.applyFrame f) := by
  unfold State.applyFrame
  split
  · split
    · exact s.applyClaim_planWork f
    · exact PlanWork.foldl (fun s k => s.releaseRecord_planWork f k) _ s
    · exact s.applyTaken_planWork _ f
    · exact s.applyTaken_planWork _ f
    · exact PlanWork.foldl State.defectRecord_planWork _ s
  · exact .refl s

/-! ### Triggers -/

theorem State.handAim_planWork (s : State) (l : Lane) (sl : Slot) (p : Plan)
    (hp : (s.plan l sl).isSome) (h : s.locked = true) : PlanWork s (s.handAim l sl p) := by
  unfold State.handAim
  split
  · exact s.setPlan_planWork l sl _ (.inl hp)
  · exact (s.setPlan_planWork l sl _ (.inl hp)).trans (State.setAims_planWork _ _ h)

theorem State.handAim_plan (s : State) (l : Lane) (sl : Slot) (p : Plan) :
    ((s.handAim l sl p).plan l sl).isSome := by
  unfold State.handAim
  split
  · simp
  · simp [State.plan]

theorem State.launch_planWork (s : State) (l : Lane) (sl : Slot) (p : Plan)
    (hp : (s.plan l sl).isSome) (h : s.locked = true) : PlanWork s (s.launch l sl p) := by
  unfold State.launch
  refine (s.handAim_planWork l sl p hp h).trans (State.modLane_planWork _ l ?_ ?_)
  · have k := LaneCtl.modParcel_kept ((s.handAim l sl p).lane l) p.tag
      (f := fun r => { r with place := .launching })
      fun q => { ParcelKept.refl q with place := .inr rfl }
    exact { k with }
  · intro a
    have := s.handAim_plan l sl p
    simp [State.plan, a] at this

/-- R11: a trigger taken is plan work. -/
theorem State.takeTrigger_planWork (s : State) (l : Lane) (sl : Slot) (h : s.locked = true) :
    PlanWork s (s.takeTrigger l sl) := by
  unfold State.takeTrigger
  have w := s.clearTrig_planWork l sl
  dsimp only
  split
  · exact w
  · rename_i p hp
    split
    · split
      · exact w.trans (State.launch_planWork _ l sl p (by rw [hp]; rfl) h)
      · exact w.trans (State.endPlan_planWork _ _ _ _)
    · exact w.trans (State.endPlan_planWork _ _ _ _)
    · exact w

theorem State.arm_planWork (s : State) (l : Lane) (sl : Slot) (q : Nat) :
    PlanWork s (s.arm l sl q) := by
  unfold State.arm
  split
  · rename_i h
    have w := s.setTrig_planWork (s.trig.set l sl (some q)) h
    dsimp only
    split
    · exact w.trans (State.takeTrigger_planWork _ _ _ h)
    · exact w
  · exact .refl s

theorem State.rearm_planWork (s : State) (l : Lane) (sl : Slot) (q : Nat) :
    PlanWork s (s.rearm l sl q) := by
  unfold State.rearm
  split
  · exact s.arm_planWork _ _ _
  · exact .refl s

/-! ### Planning -/

theorem State.ownTrays_planWork (s : State) (ref : PlanRef) (k : Nat) (sp : Span) :
    PlanWork s (s.ownTrays ref k sp) := by
  unfold State.ownTrays
  dsimp only
  split
  · exact s.modTray_planWork _ _
  · exact (s.modTray_planWork _ _).trans (State.modTray_planWork _ _ _)

theorem State.ownTrays_same (s : State) (ref : PlanRef) (k : Nat) (sp : Span) :
    (s.ownTrays ref k sp).txq = s.txq := by
  unfold State.ownTrays
  dsimp only
  split <;> simp

/-- R30, R128: a granted claim is plan work. -/
theorem State.makePlan_planWork (s : State) (l : Lane) (sl : Slot) (t : Tag) (k : Nat) (sp : Span)
    (lead : Nat) (h : s.grants k sp = true) : PlanWork s (s.makePlan l sl t k sp lead) := by
  unfold State.makePlan
  have hm : s.mapInUse = true := by
    simp only [State.grants, Bool.and_eq_true] at h; exact h.1.1.1
  have hq : s.txq.length + Config.claimRoom ≤ Config.txCapacity := by
    simp only [State.grants, Bool.and_eq_true, decide_eq_true_eq] at h; exact h.1.2
  dsimp only
  have w1 : PlanWork s ((s.ownTrays { lane := l, tag := t } k sp).appendEntry
      { kind := .claim l, tray := k, span := sp, plan := some { lane := l, tag := t },
        phase := .waiting, ended := false }) :=
    (s.ownTrays_planWork { lane := l, tag := t } k sp).append _
      (fun _ => by rw [s.ownTrays_same]; simp only [Config.claimRoom] at hq; omega) (.inr hm)
  refine w1.trans ?_
  generalize (s.ownTrays { lane := l, tag := t } k sp).appendEntry _ = s1 at w1 ⊢
  generalize s.newPlan t k sp lead = p
  refine (s1.setPlan_planWork l sl (some p) (.inr (.inr (w1.mapInUse.trans hm)))).trans ?_
  refine PlanWork.trans ?_ (State.arm_planWork _ _ _ _)
  exact State.modParcel_planWork _ l t fun q => { ParcelKept.refl q with }

theorem State.suspend_planWork (s : State) (l : Lane) : PlanWork s (s.suspend l) := by
  unfold State.suspend
  split
  · exact .refl s
  · exact (s.modPlanner_planWork _).trans (State.queueReport_planWork _ _)

theorem planParcels_planWork : ∀ (rs : List Parcel) (l : Lane) (s : State),
    PlanWork s (planParcels rs l s).1
  | [], _, s => .refl s
  | r :: rest, l, s => by
    rw [planParcels]
    dsimp only
    split
    · exact s.suspend_planWork l
    · split
      · exact .refl s
      · split
        · rename_i hg
          split
          · exact .refl s
          · have w := fun sl lead => s.makePlan_planWork l sl r.tag _ (r.span.getD .one) lead hg
            split
            · exact (w _ _).trans (planParcels_planWork rest l _)
            · exact w _ _
        · exact .refl s

/-- R122: a planning event is plan work. -/
theorem State.planningEvent_planWork (s : State) : PlanWork s s.planningEvent := by
  unfold State.planningEvent
  split
  · split
    · have w := (s.modPlanner_planWork fun p => { p with arbiter := s.arbitrate }).trans
        (planParcels_planWork (s.offered s.arbitrate) s.arbitrate _)
      dsimp only
      split
      · exact w
      · exact w.trans (planParcels_planWork _ _ _)
    · exact planParcels_planWork _ _ _
    · exact planParcels_planWork _ _ _
    · exact .refl s
  · exact .refl s

theorem State.retime_planWork (s : State) (l : Lane) (sl : Slot) : PlanWork s (s.retime l sl) := by
  unfold State.retime
  split
  · exact .refl s
  · rename_i p hp
    split
    · exact .refl s
    · split
      · exact .refl s
      · dsimp only
        split
        · exact s.endPlan_planWork _ _ _
        · exact (s.setPlan_planWork l sl _ (.inl (by rw [hp]; rfl))).trans
            (State.rearm_planWork _ _ _ _)

theorem State.retimeLane_planWork (s : State) (l : Lane) : PlanWork s (s.retimeLane l) :=
  PlanWork.foldl (fun s sl => s.retime_planWork l sl) _ s

theorem State.testSuspension_planWork (s : State) (l : Lane) : PlanWork s (s.testSuspension l) := by
  unfold State.testSuspension
  split
  · exact s.modPlanner_planWork _
  · exact .refl s

/-- R132: the Planner's part of a window end is plan work. -/
theorem State.plannerWindow_planWork (s : State) : PlanWork s s.plannerWindow := by
  unfold State.plannerWindow
  have w := (((s.afterOrder_planWork s.lanesToRetime).trans
    (PlanWork.foldl State.retimeLane_planWork (s.freeOrder s.lanesToRetime) _)).trans
      (State.testSuspension_planWork _ .l0)).trans (State.testSuspension_planWork _ .l1)
  dsimp only
  split
  · exact w.trans (State.planningEvent_planWork _)
  · exact w

/-! ### Newly reached positions -/

theorem PlanWork.foldTriggers : ∀ (xs : List (Lane × Slot)) (s : State), s.locked = true →
    PlanWork s (xs.foldl (fun s x => s.takeTrigger x.1 x.2) s)
  | [], s, _ => .refl s
  | x :: xs, s, h => by
    have w := s.takeTrigger_planWork x.1 x.2 h
    exact w.trans (PlanWork.foldTriggers xs _ (w.locked.trans h))

theorem State.takeTriggersAt_planWork (s : State) (p : Nat) (h : s.locked = true) :
    PlanWork s (s.takeTriggersAt p) :=
  (s.afterOrder_planWork _).trans
    (PlanWork.foldTriggers _ _ ((s.afterOrder_planWork _).locked.trans h))

theorem State.reachAim_planWork (s : State) (l : Lane) (sl : Slot) : PlanWork s (s.reachAim l sl) :=
  (s.clearAim_planWork l sl).trans (State.mapPlan_planWork _ _ _ _)

theorem State.reachAimsAt_planWork (s : State) (p : Nat) : PlanWork s (s.reachAimsAt p) :=
  PlanWork.foldl (fun s x => by
    split
    · exact s.reachAim_planWork _ _
    · exact .refl s) _ s

theorem State.trayEvent_planWork (s : State) (e : TrayEvent) : PlanWork s (s.trayEvent e) := by
  cases e
  · exact s.checkEvent_planWork _
  · exact s.arrival_planWork _
  · exact s.zoneExit_planWork _

theorem State.trayEvents_planWork (s : State) (p : Nat) : PlanWork s (s.trayEvents p) :=
  (s.afterOrder_planWork _).trans (PlanWork.foldl State.trayEvent_planWork _ _)

/-- R9, R11, R12: the events of a newly reached position are plan work, and the doubt window then
counts down by one (R41). -/
theorem State.newlyReached_planWork (s : State) (p : Nat) (h : s.locked = true) :
    ∃ u, PlanWork s u ∧ s.newlyReached p = u.countDoubt :=
  ⟨_, ((s.takeTriggersAt_planWork p h).trans (State.reachAimsAt_planWork _ _)).trans
    (State.trayEvents_planWork _ _), rfl⟩

theorem State.markAimsReached_planWork (s : State) : PlanWork s s.markAimsReached :=
  PlanWork.foldl (fun s (x : Lane × Slot) => s.mapPlan_planWork x.1 x.2 _) _ s

end Sys2Proof.Machine
end

