-- ==== Sys2Proof/Laws/EventOps.lean ====
section
/-! SUPPORT. The operations that end an event (transfers, feeds, aspects, output lines, the end of
LEAVING) and those that change lock, session and reset: what each changes, said once. -/

namespace Sys2Proof.Machine

/-! ### Operations that change one field -/

theorem State.startTransfer_eq (s : State) (l : Lane) :
    s.startTransfer l = s.setLanes (s.startTransfer l).lanes := by
  unfold State.startTransfer
  split <;> rfl

/-- R91: beginning transfers changes the lanes alone. -/
theorem State.startTransfers_eq (s : State) : s.startTransfers = s.setLanes s.startTransfers.lanes := by
  unfold State.startTransfers
  rw [State.startTransfer_eq (s.startTransfer .l0) .l1, s.startTransfer_eq .l0]
  rfl

/-- R90: updating the feeds changes the lanes alone. -/
theorem State.updateFeeds_eq (s : State) : s.updateFeeds = s.setLanes s.updateFeeds.lanes := rfl

/-- R142: re-taking the aspects changes the pace alone. -/
theorem State.retakeAspects_eq (s : State) : s.retakeAspects = s.modPace fun _ => s.retakeAspects.pace :=
  rfl

/-- The output lines follow the state: `drive` changes them alone. -/
theorem State.drive_eq (s : State) : s.drive = s.setOuts s.outputs := rfl

/-- R141: a pace restart changes the pace alone. -/
theorem State.paceRestart_eq (s : State) (l : Lane) :
    s.paceRestart l = s.modPace fun _ => (s.paceRestart l).pace := rfl

/-- The outputs do not read the output lines, so driving twice is driving once. -/
@[simp] theorem State.outputs_drive (s : State) : s.drive.outputs = s.outputs := rfl

/-- After `drive` the output lines are those of the state. -/
@[simp] theorem State.drive_outs (s : State) : s.drive.outs = s.drive.outputs := rfl

/-- An event that ends in `finish` leaves the output lines driven. -/
theorem State.finish_outs (s before : State) (test : Bool) :
    (s.finish before test).outs = (s.finish before test).outputs := rfl

/-- An event that ends in `settle` leaves the output lines driven. -/
theorem State.settle_outs (s before : State) (planning test : Bool) :
    (s.settle before planning test).outs = (s.settle before planning test).outputs := rfl

/-! ### Lanes at the end of an event -/

/-- What the start of a transfer and the update of a feed leave of a lane. -/
structure LaneMoved (c d : LaneCtl) : Prop where
  state : d.state = c.state
  reason : d.reason = c.reason
  tagCounter : d.tagCounter = c.tagCounter
  gapCount : d.gapCount = c.gapCount
  gapTest : d.gapTest = c.gapTest
  measure : d.measure = c.measure
  launch : d.launch = c.launch
  removal : d.removal = c.removal
  early : d.early = c.early
  buttonFilter : d.buttonFilter = c.buttonFilter
  parcels : ∃ f : Parcel → Parcel, d.parcels = c.parcels.map f ∧
    ∀ p, f p = p ∨ f p = { p with place := .transferring }

theorem LaneMoved.refl (c : LaneCtl) : LaneMoved c c :=
  ⟨rfl, rfl, rfl, rfl, rfl, rfl, rfl, rfl, rfl, rfl, id, by simp, fun _ => .inl rfl⟩

theorem LaneMoved.trans {c d e : LaneCtl} (h : LaneMoved c d) (k : LaneMoved d e) : LaneMoved c e where
  state := k.state.trans h.state
  reason := k.reason.trans h.reason
  tagCounter := k.tagCounter.trans h.tagCounter
  gapCount := k.gapCount.trans h.gapCount
  gapTest := k.gapTest.trans h.gapTest
  measure := k.measure.trans h.measure
  launch := k.launch.trans h.launch
  removal := k.removal.trans h.removal
  early := k.early.trans h.early
  buttonFilter := k.buttonFilter.trans h.buttonFilter
  parcels := by
    obtain ⟨f, hf, ef⟩ := h.parcels
    obtain ⟨g, hg, eg⟩ := k.parcels
    refine ⟨g ∘ f, by rw [hg, hf, List.map_map], fun p => ?_⟩
    rcases ef p with a | a <;> rcases eg (f p) with b | b <;> simp [Function.comp, a] at b ⊢ <;>
      simp [b]

theorem LaneMoved.length {c d : LaneCtl} (h : LaneMoved c d) :
    d.parcels.length = c.parcels.length := by
  obtain ⟨f, hf, _⟩ := h.parcels
  simp [hf]

theorem State.startTransfer_moved (s : State) (l m : Lane) :
    LaneMoved (s.lane m) ((s.startTransfer l).lane m) := by
  unfold State.startTransfer
  split
  · rename_i r _
    by_cases e : m = l
    · subst e
      rw [State.modLane_lane_self]
      exact { LaneMoved.refl (s.lane m) with
        parcels := ⟨fun p => if p.tag = r.tag then { p with place := .transferring } else p, rfl,
          fun p => by dsimp only; split <;> simp⟩ }
    · rw [State.modLane_lane_ne _ _ e]; exact .refl _
  · exact .refl _

/-- R91: what beginning transfers leaves of each lane. -/
theorem State.startTransfers_moved (s : State) (m : Lane) :
    LaneMoved (s.lane m) (s.startTransfers.lane m) :=
  (s.startTransfer_moved .l0 m).trans (State.startTransfer_moved _ .l1 m)

theorem State.updateFeed_moved (s : State) (l m : Lane) :
    LaneMoved (s.lane m) ((s.updateFeed l).lane m) := by
  unfold State.updateFeed
  by_cases e : m = l
  · subst e
    rw [State.modLane_lane_self]
    exact { LaneMoved.refl (s.lane m) with }
  · rw [State.modLane_lane_ne _ _ e]; exact .refl _

/-- R90: what updating the feeds leaves of each lane. -/
theorem State.updateFeeds_moved (s : State) (m : Lane) :
    LaneMoved (s.lane m) (s.updateFeeds.lane m) :=
  (s.updateFeed_moved .l0 m).trans (State.updateFeed_moved _ .l1 m)

/-! ### The end of an event -/

/-- R165: where LEAVING does not end, the end of an event changes lanes, pace and output lines alone. -/
theorem State.finish_eq (s before : State) (test : Bool)
    (h : (test || queueEmptied before s.updateFeeds) = false ∨ s.updateFeeds.leavingDone = false) :
    s.finish before test = s.updateFeeds.retakeAspects.drive := by
  unfold State.finish
  dsimp only
  split
  · rename_i e
    rcases h with h | h
    · rw [h] at e; cases e
    · simp [State.testLeaving, h]
  · rfl

/-- The end of an event from `s` to `t`, where LEAVING does not end. -/
structure EventEnd (s t : State) : Prop where
  loop : t.loop = s.loop
  trig : t.trig = s.trig
  aims : t.aims = s.aims
  trays : t.trays = s.trays
  doubt : t.doubt = s.doubt
  line : t.line = s.line
  txq : t.txq = s.txq
  plans : t.plans = s.plans
  planner : t.planner = s.planner
  port : t.port = s.port
  rep : t.rep = s.rep
  table : t.table = s.table
  pins : t.pins = s.pins
  tick : t.tick = s.tick
  freeCount : t.freeCount = s.freeCount
  pending : t.pending = s.pending
  lanes : ∀ l, LaneMoved (s.lane l) (t.lane l)
  target : t.pace.target = s.pace.target
  index : ∀ l, (t.pace.lanes.get l).index = (s.pace.lanes.get l).index
  valid : ∀ l, (t.pace.lanes.get l).valid = (s.pace.lanes.get l).valid
  hyst : ∀ l, (t.pace.lanes.get l).hyst = (s.pace.lanes.get l).hyst

theorem PaceLane.become_kept (p : PaceLane) (a : Aspect) :
    (p.become a).index = p.index ∧ (p.become a).valid = p.valid ∧ (p.become a).hyst = p.hyst ∧
      (p.become a).aspect = a := by
  unfold PaceLane.become
  split
  · simp_all
  · split <;> simp

theorem State.retakeAspects_lane (s : State) (l : Lane) :
    ∃ a, s.retakeAspects.pace.lanes.get l = (s.pace.lanes.get l).become a := by
  cases l
  · exact ⟨_, rfl⟩
  · exact ⟨_, rfl⟩

/-- A value that reads neither lanes, pace nor output lines is left by the end of an event. -/
theorem State.updateRetake_same {α : Type} (s : State) (g : State → α)
    (h1 : ∀ (u : State) v, g (u.setLanes v) = g u) (h2 : ∀ (u : State) f, g (u.modPace f) = g u)
    (h3 : ∀ (u : State) v, g (u.setOuts v) = g u) :
    g s.updateFeeds.retakeAspects.drive = g s := by
  rw [State.drive_eq, h3, State.retakeAspects_eq, h2, State.updateFeeds_eq, h1]

theorem State.updateRetake_pace (s : State) :
    s.updateFeeds.retakeAspects.drive.pace = s.updateFeeds.retakeAspects.pace := by
  rw [State.drive_eq]; simp

theorem State.updateFeeds_pace (s : State) : s.updateFeeds.pace = s.pace := by
  rw [State.updateFeeds_eq]; simp

theorem State.retakeAspects_lanes (s : State) : s.retakeAspects.lanes = s.lanes := by
  rw [State.retakeAspects_eq]; simp

theorem State.retakeAspects_target (s : State) : s.retakeAspects.pace.target = s.pace.target := rfl

theorem State.updateRetake_eventEnd (s : State) : EventEnd s s.updateFeeds.retakeAspects.drive where
  loop := s.updateRetake_same State.loop (by simp) (by simp) (by simp)
  trig := s.updateRetake_same State.trig (by simp) (by simp) (by simp)
  aims := s.updateRetake_same State.aims (by simp) (by simp) (by simp)
  trays := s.updateRetake_same State.trays (by simp) (by simp) (by simp)
  doubt := s.updateRetake_same State.doubt (by simp) (by simp) (by simp)
  line := s.updateRetake_same State.line (by simp) (by simp) (by simp)
  txq := s.updateRetake_same State.txq (by simp) (by simp) (by simp)
  plans := s.updateRetake_same State.plans (by simp) (by simp) (by simp)
  planner := s.updateRetake_same State.planner (by simp) (by simp) (by simp)
  port := s.updateRetake_same State.port (by simp) (by simp) (by simp)
  rep := s.updateRetake_same State.rep (by simp) (by simp) (by simp)
  table := s.updateRetake_same State.table (by simp) (by simp) (by simp)
  pins := s.updateRetake_same State.pins (by simp) (by simp) (by simp)
  tick := s.updateRetake_same State.tick (by simp) (by simp) (by simp)
  freeCount := s.updateRetake_same State.freeCount (by simp) (by simp) (by simp)
  pending := s.updateRetake_same State.pending (by simp) (by simp) (by simp)
  lanes := fun l => by
    have : s.updateFeeds.retakeAspects.drive.lanes = s.updateFeeds.lanes := by
      rw [State.drive_eq, State.setOuts_lanes, State.retakeAspects_lanes]
    rw [State.lane, State.lane, this]
    exact s.updateFeeds_moved l
  target := by rw [State.updateRetake_pace, State.retakeAspects_target, State.updateFeeds_pace]
  index := fun l => by
    obtain ⟨a, e⟩ := s.updateFeeds.retakeAspects_lane l
    rw [State.updateRetake_pace, e, (PaceLane.become_kept _ a).1, State.updateFeeds_pace]
  valid := fun l => by
    obtain ⟨a, e⟩ := s.updateFeeds.retakeAspects_lane l
    rw [State.updateRetake_pace, e, (PaceLane.become_kept _ a).2.1, State.updateFeeds_pace]
  hyst := fun l => by
    obtain ⟨a, e⟩ := s.updateFeeds.retakeAspects_lane l
    rw [State.updateRetake_pace, e, (PaceLane.become_kept _ a).2.2.1, State.updateFeeds_pace]

/-- What `finish` leaves, where LEAVING does not end. -/
theorem State.finish_eventEnd (s before : State) (test : Bool)
    (h : (test || queueEmptied before s.updateFeeds) = false ∨ s.updateFeeds.leavingDone = false) :
    EventEnd s (s.finish before test) := by
  rw [s.finish_eq before test h]
  exact s.updateRetake_eventEnd

theorem EventEnd.of_lanes {s u t : State} (e : u = s.setLanes u.lanes)
    (m : ∀ l, LaneMoved (s.lane l) (u.lane l)) (h : EventEnd u t) : EventEnd s t where
  loop := h.loop.trans (by rw [e]; rfl)
  trig := h.trig.trans (by rw [e]; rfl)
  aims := h.aims.trans (by rw [e]; rfl)
  trays := h.trays.trans (by rw [e]; rfl)
  doubt := h.doubt.trans (by rw [e]; rfl)
  line := h.line.trans (by rw [e]; rfl)
  txq := h.txq.trans (by rw [e]; rfl)
  plans := h.plans.trans (by rw [e]; rfl)
  planner := h.planner.trans (by rw [e]; rfl)
  port := h.port.trans (by rw [e]; rfl)
  rep := h.rep.trans (by rw [e]; rfl)
  table := h.table.trans (by rw [e]; rfl)
  pins := h.pins.trans (by rw [e]; rfl)
  tick := h.tick.trans (by rw [e]; rfl)
  freeCount := h.freeCount.trans (by rw [e]; rfl)
  pending := h.pending.trans (by rw [e]; rfl)
  lanes := fun l => (m l).trans (h.lanes l)
  target := h.target.trans (by rw [e]; rfl)
  index := fun l => (h.index l).trans (by rw [e]; rfl)
  valid := fun l => (h.valid l).trans (by rw [e]; rfl)
  hyst := fun l => (h.hyst l).trans (by rw [e]; rfl)

/-- What `settle` leaves where the event raises no planning event and cannot end LEAVING: no plan
ended, no queue emptied, no test asked for (R122, R165). -/
theorem State.settle_eventEnd (s before : State) (hp : planEnded before s = false)
    (hq : queueEmptied before s = false) : EventEnd s (s.settle before false false) := by
  have e := s.startTransfers_eq
  have hq' : queueEmptied before s.startTransfers.updateFeeds = false := by
    rw [State.updateFeeds_eq, e]; exact hq
  have : s.settle before false false = s.startTransfers.finish before false := by
    unfold State.settle; simp [hp]
  rw [this]
  exact EventEnd.of_lanes e s.startTransfers_moved
    (State.finish_eventEnd _ _ _ (.inl (by simpa using hq')))

/-- The same where LEAVING is tested but the station is not LEAVING. -/
theorem State.settle_eventEnd_of_not_leaving (s before : State) (test : Bool)
    (hp : planEnded before s = false) (hs : s.table.station ≠ .leaving) :
    EventEnd s (s.settle before false test) := by
  have e := s.startTransfers_eq
  have hd : s.startTransfers.updateFeeds.leavingDone = false := by
    have ht : s.startTransfers.updateFeeds.table = s.table := by
      rw [State.updateFeeds_eq, e]; rfl
    simp [State.leavingDone, ht, hs]
  have : s.settle before false test = s.startTransfers.finish before test := by
    unfold State.settle; simp [hp]
  rw [this]
  exact EventEnd.of_lanes e s.startTransfers_moved (State.finish_eventEnd _ _ _ (.inr hd))

/-- No plan has ended between two states with the same plans. -/
theorem planEnded_of_plans_eq {s t : State} (h : t.plans = s.plans) : planEnded s t = false := by
  unfold planEnded
  simp only [State.plan, h, List.any_eq_false]
  intro x _
  cases (s.plans.get x.1 x.2) <;> simp

/-- The queue has not emptied between two states with the same queue. -/
theorem queueEmptied_of_txq_eq {s t : State} (h : t.txq = s.txq) : queueEmptied s t = false := by
  unfold queueEmptied
  rw [h]
  cases s.txq.isEmpty <;> rfl

/-! ### A state at rest -/

theorem State.startTransfer_eq_self {s : State} {l : Lane} (h : s.transferReady? l = none) :
    s.startTransfer l = s := by
  unfold State.startTransfer; rw [h]

theorem State.updateFeed_eq_self {s : State} {l : Lane} (h : (s.lane l).feed = s.feedRuns l) :
    s.updateFeed l = s := by
  unfold State.updateFeed State.modLane
  rw [← h]
  cases s; cases l <;> rfl

theorem State.retakeAspect_eq_self {s : State} {l : Lane}
    (h : (s.pace.lanes.get l).aspect = s.aspectOf l) : s.retakeAspect l = s := by
  unfold State.retakeAspect State.modPaceLane
  have : (s.pace.lanes.get l).become (s.aspectOf l) = s.pace.lanes.get l := by
    unfold PaceLane.become; rw [if_pos h]
  dsimp only
  have e : (s.modPace fun p => { p with lanes := p.lanes.set l ((p.lanes.get l).become (s.aspectOf l)) }) =
      s.modPace fun _ => { s.pace with lanes := s.pace.lanes.set l (s.pace.lanes.get l) } := by
    simp only [State.modPace, this]
  rw [e]
  cases s; cases l <;> rfl

theorem State.drive_eq_self {s : State} (h : s.outs = s.outputs) : s.drive = s := by
  unfold State.drive State.setOuts
  rw [← h]

/-- The end of an event changes nothing of a state at rest, where no plan has ended and no queue has
emptied. -/
theorem State.settle_eq_self {s before : State} (ht : ∀ l, s.transferReady? l = none)
    (hf : ∀ l, (s.lane l).feed = s.feedRuns l)
    (ha : ∀ l, (s.pace.lanes.get l).aspect = s.aspectOf l) (ho : s.outs = s.outputs)
    (hp : planEnded before s = false) (hq : queueEmptied before s = false) :
    s.settle before false false = s := by
  unfold State.settle State.startTransfers State.finish State.updateFeeds State.retakeAspects
  simp only [State.startTransfer_eq_self (ht _), hp, Bool.or_self, Bool.false_eq_true, if_false,
    State.updateFeed_eq_self (hf _), hq, State.retakeAspect_eq_self (ha _), State.drive_eq_self ho]

/-! ### Lock lost -/

theorem LoopTracker.unlock_fields (c : LoopTracker) :
    c.unlock.windowCount = c.windowCount ∧ c.unlock.windowTimer = c.windowTimer ∧
      c.unlock.vs = c.vs ∧ c.unlock.overspeed = c.overspeed ∧
      c.unlock.standstill = c.standstill ∧ c.unlock.motion = c.motion :=
  ⟨rfl, rfl, rfl, rfl, rfl, rfl⟩

/-- R7: lock lost is the loop unlocked, triggers and aims emptied, LOST reported, then plan work, then
both paces restarted. -/
theorem State.lockLost_planWork (s : State) :
    ∃ u, PlanWork ((((s.modLoop LoopTracker.unlock).setTrig (.all none)).setAims
        (.all none)).queueReport (.loop .unlocked .lost)) u ∧
      s.lockLost = (u.paceRestart .l0).paceRestart .l1 := by
  unfold State.lockLost
  dsimp only
  generalize (((s.modLoop LoopTracker.unlock).setTrig (.all none)).setAims
    (.all none)).queueReport (.loop .unlocked .lost) = s2
  refine ⟨_, ?_, rfl⟩
  have w : PlanWork s2 (if s2.mapInUse then s2.lockLostTrays else s2) := by
    split
    · exact s2.lockLostTrays_planWork
    · exact .refl _
  exact (w.trans (State.withdrawAll_planWork _)).trans (State.markAimsReached_planWork _)

/-- R7: the loop after a lock loss. -/
theorem State.lockLost_loop (s : State) : s.lockLost.loop = s.loop.unlock := by
  obtain ⟨u, w, e⟩ := s.lockLost_planWork
  rw [e, State.paceRestart_eq, State.paceRestart_eq]
  simpa using w.loop

/-- R7: no trigger and no aim is held after a lock loss. -/
theorem State.lockLost_entries (s : State) :
    s.lockLost.trig = .all none ∧ s.lockLost.aims = .all none := by
  obtain ⟨u, w, e⟩ := s.lockLost_planWork
  have h := w.idle (by simp [State.locked, LoopTracker.unlock]) (by simp) (by simp)
  rw [e, State.paceRestart_eq, State.paceRestart_eq]
  simpa using h

/-! ### Reset -/

/-- R166: what a reset leaves: the levels of the input lines and the model's own fields. -/
theorem State.resetBlocks_kept (s : State) :
    s.resetBlocks.pins = s.pins ∧ s.resetBlocks.tick = s.tick ∧
      s.resetBlocks.freeCount = s.freeCount ∧ s.resetBlocks.pending = s.pending :=
  ⟨rfl, rfl, rfl, rfl⟩

/-! ### The end of any event -/

/-- What the end of any event leaves, whether or not plans are made and LEAVING ends. -/
structure EventKept (s t : State) : Prop where
  loop : t.loop = s.loop
  port : t.port = s.port
  pins : t.pins = s.pins
  tick : t.tick = s.tick
  pending : t.pending = s.pending
  working : t.table.working = s.table.working
  pointer : t.table.pointer = s.table.pointer
  committed : t.table.committed = s.table.committed
  applying : t.table.applying = s.table.applying

theorem EventKept.refl (s : State) : EventKept s s := ⟨rfl, rfl, rfl, rfl, rfl, rfl, rfl, rfl, rfl⟩

theorem EventKept.trans {s t u : State} (h : EventKept s t) (k : EventKept t u) : EventKept s u :=
  ⟨k.loop.trans h.loop, k.port.trans h.port, k.pins.trans h.pins, k.tick.trans h.tick,
    k.pending.trans h.pending, k.working.trans h.working, k.pointer.trans h.pointer,
    k.committed.trans h.committed, k.applying.trans h.applying⟩

theorem PlanWork.eventKept {s t : State} (h : PlanWork s t) : EventKept s t :=
  ⟨h.loop, h.port, h.pins, h.tick, h.pending, by rw [h.table], by rw [h.table], by rw [h.table],
    by rw [h.table]⟩

theorem EventEnd.eventKept {s t : State} (h : EventEnd s t) : EventKept s t :=
  ⟨h.loop, h.port, h.pins, h.tick, h.pending, by rw [h.table], by rw [h.table], by rw [h.table],
    by rw [h.table]⟩

theorem State.enterLane_kept (s : State) (l : Lane) (st : LaneState) (reason : LaneReason) :
    EventKept s (s.enterLane l st reason) := by
  unfold State.enterLane
  dsimp only
  split
  · exact ⟨rfl, rfl, rfl, rfl, rfl, rfl, rfl, rfl, rfl⟩
  · exact ⟨rfl, rfl, rfl, rfl, rfl, rfl, rfl, rfl, rfl⟩

theorem State.laneLeft_kept (s : State) (l : Lane) : EventKept s (s.laneLeft l) := by
  unfold State.laneLeft
  dsimp only
  have w : EventKept s (s.modLane l fun c =>
      { c.deleteList with reason := .station, removal := c.removal || !c.parcels.isEmpty }) :=
    ⟨rfl, rfl, rfl, rfl, rfl, rfl, rfl, rfl, rfl⟩
  split
  · exact w
  · exact w.trans (State.enterLane_kept _ _ _ _)

theorem EventKept.foldl {α : Type} {f : State → α → State} (h : ∀ s a, EventKept s (f s a)) :
    ∀ (as : List α) (s : State), EventKept s (as.foldl f s)
  | [], s => .refl s
  | a :: as, s => (h s a).trans (EventKept.foldl h as (f s a))

theorem State.disableLine_kept (s : State) :
    EventKept s ((s.modLine LineIf.disable).freshTrays.setDoubt 0) :=
  ⟨rfl, rfl, rfl, rfl, rfl, rfl, rfl, rfl, rfl⟩

theorem State.clearPlanning_kept (s : State) :
    EventKept s ((((s.setPlans (.all none)).setTrig (.all none)).setAims (.all none)).modPlanner
      (fun p => { p with suspended := .all false }) |>.setStation .configured) :=
  ⟨rfl, rfl, rfl, rfl, rfl, rfl, rfl, rfl, rfl⟩

theorem State.retakeDrive_kept (s : State) : EventKept s s.retakeAspects.drive :=
  ⟨rfl, rfl, rfl, rfl, rfl, rfl, rfl, rfl, rfl⟩

theorem State.updateFeeds_kept (s : State) : EventKept s s.updateFeeds :=
  ⟨rfl, rfl, rfl, rfl, rfl, rfl, rfl, rfl, rfl⟩

/-- R165: the end of LEAVING leaves the loop, the port, the input lines and the words. -/
theorem State.endLeaving_kept (s : State) : EventKept s s.endLeaving := by
  unfold State.endLeaving
  dsimp only
  have w0 := s.disableLine_kept
  have w1 := w0.trans (State.afterOrder_planWork _ s.lanesRunningOn).eventKept
  have w2 := w1.trans (EventKept.foldl State.laneLeft_kept
    (s.freeOrder s.lanesRunningOn ++ bothLanes.filter fun l => (s.lane l).state == .stopped) _)
  exact w2.trans (State.clearPlanning_kept _)

theorem State.testLeaving_kept (s : State) : EventKept s s.testLeaving := by
  unfold State.testLeaving
  split
  · exact s.endLeaving_kept
  · exact .refl s

theorem State.startTransfers_kept (s : State) : EventKept s s.startTransfers := by
  rw [s.startTransfers_eq]
  exact ⟨rfl, rfl, rfl, rfl, rfl, rfl, rfl, rfl, rfl⟩

/-- What `finish` leaves in every case. -/
theorem State.finish_kept (s before : State) (test : Bool) : EventKept s (s.finish before test) := by
  unfold State.finish
  dsimp only
  split
  · exact (s.updateFeeds_kept.trans (State.testLeaving_kept _)).trans (State.retakeDrive_kept _)
  · exact s.updateFeeds_kept.trans (State.retakeDrive_kept _)

/-- The end of any event is transfers, then at most one planning event, then `finish`. -/
theorem State.settle_cases (s before : State) (planning test : Bool) :
    ∃ u, PlanWork s.startTransfers u ∧ (u = s.startTransfers ∨ u = s.startTransfers.planningEvent) ∧
      s.settle before planning test = u.finish before test := by
  unfold State.settle
  dsimp only
  split
  · exact ⟨_, State.planningEvent_planWork _, .inr rfl, rfl⟩
  · exact ⟨_, .refl _, .inl rfl, rfl⟩

/-- What `settle` leaves in every case. -/
theorem State.settle_kept (s before : State) (planning test : Bool) :
    EventKept s (s.settle before planning test) := by
  obtain ⟨u, w, _, e⟩ := s.settle_cases before planning test
  rw [e]
  exact (s.startTransfers_kept.trans w.eventKept).trans (u.finish_kept _ _)

end Sys2Proof.Machine
end

