-- ==== Sys2Proof/Laws/EndOps.lean ====
section
/-! SUPPORT. Free orders, the end of a frame or an attempt, a window end's two blocks and the pulse timer: what
each can do, said once. -/

namespace Sys2Proof.Machine

/-! ### Free orders (log 4) -/

theorem takeNth_perm {α : Type} : ∀ (n : Nat) (l : List α) {a : α} {rest : List α},
    takeNth n l = some (a, rest) → (a :: rest).Perm l
  | _, [], _, _, h => by simp [takeNth] at h
  | 0, b :: bs, _, _, h => by
    simp only [takeNth, Option.some.injEq, Prod.mk.injEq] at h
    obtain ⟨rfl, rfl⟩ := h
    exact .refl _
  | n + 1, b :: bs, _, _, h => by
    unfold takeNth at h
    split at h
    · rename_i c cs e
      simp only [Option.some.injEq, Prod.mk.injEq] at h
      obtain ⟨rfl, rfl⟩ := h
      exact (List.Perm.swap _ _ _).trans (.cons _ (takeNth_perm n bs e))
    · cases h

theorem permuteBy_perm {α : Type} : ∀ (n k : Nat) (l : List α), (permuteBy n k l).Perm l
  | 0, _, _ => .refl _
  | n + 1, k, l => by
    unfold permuteBy
    split
    · rename_i a rest e
      exact (List.Perm.cons a (permuteBy_perm n _ rest)).trans (takeNth_perm _ _ e)
    · exact .refl _

/-- A free order is an order of the same things. -/
theorem State.freeOrder_perm {α : Type} (s : State) (l : List α) : (s.freeOrder l).Perm l := by
  unfold State.freeOrder
  split
  · exact .refl _
  · exact permuteBy_perm _ _ _

/-- Taking a free order moves the free counter alone. -/
theorem State.afterOrder_eq {α : Type} (s : State) (l : List α) :
    s.afterOrder l = s.setFreeCount (s.afterOrder l).freeCount := by
  unfold State.afterOrder
  split <;> rfl

/-! ### The end of a frame (R47, R49) -/

/-- The end of a frame changes the line alone: HUNTING with an empty buffer and the run its last stop bit
leaves. -/
theorem State.endFrame_eq (s : State) (bytes : List Byte) (stops : StopBits) :
    s.endFrame bytes stops = s.modLine (LineIf.frameEnd
      (runAfterStop bytes (s.line.lastStopLow bytes stops))) := rfl

/-- The last stop bit is good where no mark is held and the command says no more than an earlier fault. -/
theorem LineIf.lastStopLow_unmarked (c : LineIf) (bytes : List Byte) {stops : StopBits}
    (h : c.rxFault = false) (hs : stops ≠ .lastLow) : c.lastStopLow bytes stops = false := by
  simp [LineIf.lastStopLow, h, hs]

/-- A mark held is of an earlier byte where the frame goes on beyond the bytes held. -/
theorem LineIf.lastStopLow_beyond_mark (c : LineIf) (bytes : List Byte) {stops : StopBits}
    (h : c.rxBuf.length < bytes.length) (hs : stops ≠ .lastLow) :
    c.lastStopLow bytes stops = false := by
  simp [LineIf.lastStopLow, Nat.not_le.mpr h, hs]

/-- The line after a heard frame, as the statements name it. -/
theorem State.lineAfter_eq (s : State) (f : FrameData) :
    s.lineAfter f = LineIf.frameEnd (endRun (frameBytes f)) s.line := rfl

/-! ### The end of an attempt (R56, R59, R60, R63) -/

/-- A failed attempt of the head: it waits with one attempt more, or, at the sixteenth, is abandoned. -/
theorem State.failAttempt_cases (s : State) (e : TxEntry) :
    (s.line.attempt + 1 < 16 ∧
      s.failAttempt e = (s.setTxq (s.txq.modifyHead fun e => { e with phase := .waiting })).modLine
        fun c => { c with
          attempt := s.line.attempt + 1
          backoff := 24 + (s.stationNumber + 1) * 16 + s.line.attempt * 32 }) ∨
    (16 ≤ s.line.attempt + 1 ∧ s.failAttempt e = s.abandonHead e) := by
  unfold State.failAttempt
  dsimp only
  by_cases h : Config.attemptLimit ≤ s.line.attempt + 1
  · rw [if_pos h]; exact .inr ⟨h, rfl⟩
  · rw [if_neg h]
    refine .inl ⟨Nat.lt_of_not_le h, ?_⟩
    simp [State.backoffAfter]

/-- The attempt of the head ends: only a collision removes a CLAIM of an ended plan. -/
theorem State.endAttempt_cases (s : State) (e : TxEntry) (sent : Bool) :
    (sent = true ∧ e.ended = true ∧ s.endAttempt e sent = s.dropEntry 0) ∨
      ((sent = false ∨ e.ended = false) ∧ s.endAttempt e sent = s.failAttempt e) := by
  unfold State.endAttempt
  cases sent <;> cases e.ended <;> simp

/-- What a bit that reads back otherwise does changes the line alone. -/
theorem State.readBack_eq (s : State) (e : TxEntry) (bit : Nat) (sent : Bool) :
    s.readBack e bit sent = s.modLine fun _ => (s.readBack e bit sent).line := by
  cases sent <;> rfl

/-! ### A window end and the pulse timer (R132, R138, R143) -/

/-- A window end is the Planner's part and the Pace Generator's, in one of the two orders. -/
theorem State.windowBlocks_cases (s : State) :
    ∃ n, s.windowBlocks = (s.plannerWindow.paceTake).setFreeCount n ∨
      s.windowBlocks = (s.paceTake.plannerWindow).setFreeCount n := by
  unfold State.windowBlocks
  dsimp only
  split
  · exact ⟨_, .inl rfl⟩
  · split
    · exact ⟨_, .inr rfl⟩
    · exact ⟨_, .inl rfl⟩

/-- The pulse timer at a tick: it stands still out of GO and at the pulse's end, stands at its interval for
GO_PULSE, and moves by one otherwise. -/
theorem PaceLane.pulseTick_cases (p : PaceLane) :
    ((p.aspect ≠ .go ∨ p.goEndDue = true) ∧ p.pulseTick = p.pulse) ∨
      (p.goDue = true ∧ p.pulseTick = max p.pulse (interval p.index)) ∨
      (p.aspect = .go ∧ p.goDue = false ∧ p.goEndDue = false ∧ p.pulseTick = p.pulse + 1) := by
  unfold PaceLane.pulseTick
  split
  · exact .inl ⟨‹_›, rfl⟩
  · rename_i h
    simp only [not_or, ne_eq, Decidable.not_not, Bool.not_eq_true] at h
    split
    · exact .inr (.inl ⟨‹_›, rfl⟩)
    · exact .inr (.inr ⟨h.1, eq_false_of_ne_true ‹_›, h.2, rfl⟩)

/-- R143: at a pulse timer short of the interval GO_PULSE finds nothing due. -/
theorem PaceLane.pulse_lt_of_not_goDue {p : PaceLane} (ha : p.aspect = .go) (h : p.goDue = false) :
    p.pulse + 1 < interval p.index := by
  simpa [PaceLane.goDue, ha] using h

end Sys2Proof.Machine
end

