-- ==== Sys2Proof/WellFormed.lean ====
section
/-! DEFINITION. Which commands fit the fields that carry them. `exec` is total without it; the
encoding statements use it. -/

namespace Sys2Proof

/-- A frame's sender and tray fit their fields: 5, 21 and 10 bits (3.3, frame layout). -/
def frameFieldsFit (station location tray : Nat) : Bool :=
  decide (station < 32) && decide (location < 2 ^ 21) && decide (tray < 1024)

/-- A command whose operands fit their fields. Heard frames: `frameFieldsFit`, and for a LOADED a
chute 1..254 (3.3). A received buffer: at most 9 bytes (R49). A collision: a bit of a frame of at
most 90 bit times (R46). Every other operand fits by its type. -/
def Instr.wellFormed : Instr → Bool
  | .receivedFrameRejected bytes _ _ => decide (bytes.length ≤ 9)
  | .claimHeard st x k _ _ => frameFieldsFit st x k
  | .releaseHeard st x k _ => frameFieldsFit st x k
  | .loadedHeard st x k _ chute _ =>
      frameFieldsFit st x k && decide (1 ≤ chute.toNat) && decide (chute.toNat ≤ 254)
  | .occupiedHeard st x k _ => frameFieldsFit st x k
  | .defectHeard st x k _ => frameFieldsFit st x k
  | .attemptCollision bit => decide (bit < 90)
  | .encoderCount .. | .markerPulse .. | .markerMissing | .windowEnd | .yieldChange _ => true
  | .frameAttemptStart | .backoffExpired | .lineHeld | .frameTxComplete | .entryAbandoned => true
  | .entryEyeBlocked _ | .entryEyeClear _ | .beltEncoderCount _ | .gapCountReached _ => true
  | .measurementLimit _ | .holdEyeBlocked _ | .launchEyeBlocked _ | .transferTimeout _ => true
  | .mergeEyeBlocked _ | .mergeEyeClear _ | .mergeTimeout _ => true
  | .buttonPress _ | .buttonFilterElapsed _ | .goPulse _ | .goPulseEnd _ | .waitBlink _ => true
  | .transactionByte _ | .putByte _ | .takeByte | .parserByte => true
  | .scan .. | .start _ | .stop _ | .pause _ | .resume _ => true
  | .setPointer _ | .loadWord _ | .loadWordNext _ | .apply | .applyComplete => true
  | .join | .leave | .leavingEnd | .readTray _ | .clearDefect _ | .identify | .clearFlags => true
  | .reset | .resetLine | .selectPeriodStart | .selectPeriodEnd | .resetLineReleased => true
  | .receiverEntersHunting => true

end Sys2Proof
end

