-- ==== Sys2Proof/Tests/Slice0.lean ====
section
/-! SUPPORT. Tests. The first part checks commands the field widths refuse; the second checks figures of
the manual's worked cases, each named with its section; the third shows, for each statement that has
hypotheses, a concrete state and operands that meet them, each clause at a boundary of its range. -/

namespace Sys2Proof.Tests

set_option Elab.async false

open Sys2Proof Sys2Proof.Machine

/-! ## Commands that do not fit their fields -/

theorem test_wellFormed_station : (Instr.claimHeard 32 0 0 .one .l0).wellFormed = false := by decide
theorem test_wellFormed_location :
    (Instr.releaseHeard 31 2097152 0 .one).wellFormed = false := by decide
theorem test_wellFormed_tray : (Instr.occupiedHeard 0 0 1024 .two).wellFormed = false := by decide
theorem test_wellFormed_defect_tray : (Instr.defectHeard 0 0 1024 .one).wellFormed = false := by decide
theorem test_wellFormed_chute_low :
    (Instr.loadedHeard 0 0 0 .one 0 false).wellFormed = false := by decide
theorem test_wellFormed_chute_high :
    (Instr.loadedHeard 0 0 0 .one 255 true).wellFormed = false := by decide
theorem test_wellFormed_buffer :
    (Instr.receivedFrameRejected (List.replicate 10 0) .good false).wellFormed = false := by decide
theorem test_wellFormed_bit : (Instr.attemptCollision 90).wellFormed = false := by decide
theorem test_wellFormed_top :
    (Instr.loadedHeard 31 2097151 1023 .two 254 true).wellFormed = true := by decide

/-! ## Figures of the manual -/

/-- The words of station 9 in the geometry of the worked cases (7.4, 8.5, 10.8). -/
def words9 : Words :=
  #v[9, 195000, 200, 1000, 180000, 7300, 1500, 20000, 500, 20, 1500, 10, 50, 1, 25000, 0xFFFF, 0x30,
    200, 600, 2400, 200, 3, 3000, 900, 1800, 150, 0, 0x1818, 2000, 250, 4, 3000, 900, 1800, 150, 7,
    0x1818, 0xFFFFFFFF, 0xFFFFFFFF, 0xFFFFFFFF, 0xFFFFFFFF, 0xFFFFFFFF, 0xFFFFFFFF, 0xFFFFFFFF,
    0xFFFFFFFF, 0xFFFFFFFF, 0xFFFFFFFF, 7]

/-- Station 9 ONLINE and LOCKED at S = 57,300 with vs = 250 and every tray OPEN. -/
def station9 : State :=
  { State.reset with
    loop := { LoopTracker.reset with
      lock := .locked, S := 57300, frontier := 57300, vs := 250, standstill := 0, motion := .moving }
    trays := List.replicate 200 { TrayRec.fresh with cond := .opened }
    line := { LineIf.reset with enabled := true, rx := .hunting }
    table := { ConfigTable.reset with committed := words9, station := .online }
    pins := { Pins.reset with lvl := true } }

/-- The state a command leaves. -/
def after (o : Host.Outcome State Fault Refusal) : State :=
  match o with
  | .next t => t
  | _ => State.reset

/-- 7.4: λ = 3395 for ℓ = 600 and 3958 for ℓ = 1500. -/
theorem test_lead :
    station9.leadAt .l0 600 250 = 3395 ∧ station9.leadAt .l0 1500 250 = 3958 := by decide +kernel

/-- 7.4: tray 62 for a single parcel, the pair (62, 63) for a span, at these leads. -/
theorem test_aim_search :
    station9.searchAim .l0 3395 .one = some 62 ∧ station9.searchAim .l0 3958 .two = some 62 := by
  decide +kernel

/-- 7.4: the trigger positions 58,605 and 58,542. -/
theorem test_trigger_position :
    station9.fd 3395 (station9.aimOf 62 .one) = 58605 ∧
      station9.fd 3958 (station9.aimOf 62 .two) = 58542 := by decide +kernel

/-- 10.8: the zone spans 27,300 and X lies 15,000 inside it. -/
theorem test_zone :
    station9.fd 180000 7300 = 27300 ∧ station9.zoneOffset 195000 = 15000 ∧
      station9.fd 195000 7300 = 12300 := by decide +kernel

/-- 10.8: word 3 at 1001 is OUT_OF_RANGE, word 7 at 180,000 a CONFLICT, the mended words OK. -/
theorem test_validation :
    validate ((words9.set 3 1001).set 7 180000) = .outOfRange 3 ∧
      validate (words9.set 7 180000) = .conflict 7 ∧ validate words9 = .ok := by decide +kernel

/-- R160: word 9 is signed, so 0xFFFFFF06 passes and 251 does not. -/
theorem test_signed_trim :
    validate (words9.set 9 0xFFFFFF06) = .ok ∧ validate (words9.set 9 251) = .outOfRange 9 := by
  decide +kernel

/-- 2.11: sectors of T = 200, and 2.12: tray 62 is withheld by YIELD with sectors 4 and 5. -/
theorem test_sectors :
    station9.sectorOf 52 = 4 ∧ station9.sectorOf 77 = 5 ∧ station9.sectorOf 199 = 15 ∧
      station9.eligible 62 = true ∧
      (after (exec (.yieldChange true) station9)).eligible 62 = false := by decide +kernel

/-- 3.10: backoffs 184 and 216 at station 9. -/
theorem test_backoff : station9.backoffAfter 1 = 184 ∧ station9.backoffAfter 2 = 216 := by
  decide +kernel

/-- 3.3: CLAIM of lane 0 for tray 62 from station 9 at 195,000, its check computed by hand. -/
theorem test_claim_frame :
    frameBytes { kind := .claim .l0, station := 9, location := 195000, tray := 62, span := .one } =
      [0x96, 0xC9, 0x17, 0xCD, 0xC0, 0x7C, 0x23, 0x15] := by decide +kernel

/-- 3.3: LOADED with the double flag, chute 17, its check computed by hand. -/
theorem test_loaded_frame :
    frameBytes
        { kind := .loaded 17 true, station := 9, location := 195000, tray := 61, span := .one } =
      [0x96, 0x89, 0x17, 0xCD, 0xC0, 0x7A, 0x11, 0x4D, 0xD0] := by decide +kernel

/-- R50: a wrong check is CRC, a short buffer LENGTH. -/
theorem test_frame_checks :
    parseFrame [0x96, 0xC9, 0x17, 0xCD, 0xC0, 0x7C, 0x23, 0x14] false = .error .crc ∧
      parseFrame [0x96, 0xC9, 0x17, 0xCD, 0xC0, 0x7C, 0x23] false = .error .length := by
  decide +kernel

/-- 1.9: the marker at S = 12 in COASTING: b = 12, K = 0, LOCKED, and a LOOP report. -/
theorem test_marker_regained :
    let s := { station9 with loop := { station9.loop with
      lock := .coasting, S := 12, frontier := 12, travel := 200012, missing := 1 } }
    let s := { s with table := { s.table with committed := words9.set 11 40 } }
    let t := after (exec (.markerPulse false true) s)
    t.loop.S = 0 ∧ t.loop.backlog = 12 ∧ t.loop.frontier = 12 ∧ t.loop.travel = 0 ∧
      t.loop.lock = .locked ∧ t.rep.fifo = [0x84, 1, 0] := by decide +kernel

/-- 1.9: window 2 of the speed windows: 612 saturates to 600 and reports OVERSPEED. -/
theorem test_overspeed :
    let s := { station9 with loop := { station9.loop with windowCount := 612 } }
    let t := after (exec .windowEnd s)
    t.loop.vs = 600 ∧ t.loop.overspeed = true ∧ t.rep.fifo = [0x84, 1, 3] := by decide +kernel

/-- 8.5, 8.1: 2133 ms calls index 11, 1600 calls 8, 1280 calls 7, 1066 calls 6, 3200 calls 13. -/
theorem test_called_entries :
    targetOf 1000 16 2 250 6 = some 2133 ∧ calledIndex 2133 = 11 ∧ calledIndex 1600 = 8 ∧
      calledIndex 1280 = 7 ∧ calledIndex 1066 = 6 ∧ calledIndex 3200 = 13 := by decide

/-- 8.5: the slower entry of window 1 at once, the fifth faster call of window 6 taken, the fourth not. -/
theorem test_hysteresis :
    let p (i h : Nat) : PaceLane := { PaceLane.reset with index := i, hyst := h }
    ((p 10 0).call 11).index = 11 ∧ ((p 11 4).call 6).index = 6 ∧ ((p 11 3).call 7).index = 11 ∧
      ((p 11 3).call 7).hyst = 4 := by decide

/-- 9.7: status 0x01 after reset; IDENTIFY through PUT and parser gives the ID report and 0x03. -/
theorem test_identify :
    let s := { State.reset with port := { LocalPort.reset with inbound := [0x40] } }
    let t := after (exec .parserByte s)
    State.reset.statusByte = 0x01 ∧ t.rep.fifo = [0x8C, 0x2D, 1, 0] ∧ t.statusByte = 0x03 := by
  decide +kernel

/-- 9.7: the APPLY completes OK: APPLY_RESULT 0x8A, 0x00, 0xFF, and ATTN low by word 47. -/
theorem test_apply_complete :
    let s := { State.reset with table := { ConfigTable.reset with
      station := .applying
      applying := some { copy := words9, fromConfigured := false, timer := 1 } } }
    let t := after (exec .applyComplete s)
    t.rep.fifo = [0x8A, 0, 0xFF] ∧ t.outs.attnLow = true ∧ t.table.station = .configured ∧
      t.trays.length = 200 := by decide +kernel

/-- R154: a SCAN while APPLYING is discarded with COMMAND_ERROR: status 0x15 with no report. -/
theorem test_busy_scan :
    let s := { State.reset with table := { ConfigTable.reset with
      station := .applying
      applying := some { copy := words9, fromConfigured := false, timer := 0 } } }
    (after (exec (.scan 0 5 17 0) s)).statusByte = 0x15 := by decide +kernel

/-! ## A small station -/

/-- Words of a loop of 16 trays, 400 counts apart: L = 6400, X = 1000 in the zone 0 to 2100. -/
def words5 : Words :=
  #v[5, 1000, 16, 400, 0, 2100, 600, 3000, 100, 0, 200, 10, 50, 1, 0, 0xFFFF, 0, 99, 300, 300, 200, 3,
    400, 400, 800, 50, 0, 0, 300, 200, 3, 400, 400, 800, 50, 0, 0, 0xFFFFFFFF, 0xFFFFFFFF, 0xFFFFFFFF,
    0xFFFFFFFF, 0xFFFFFFFF, 0xFFFFFFFF, 0xFFFFFFFF, 0xFFFFFFFF, 0xFFFFFFFF, 0xFFFFFFFF, 7]

/-- An ONLINE station in lock, both lanes in a given state. -/
def station5 (lanes : Two LaneCtl) : State :=
  { State.reset with
    loop := { LoopTracker.reset with
      lock := .locked, S := 100, frontier := 100, vs := 100, standstill := 0, motion := .moving }
    trays := List.replicate 16 { TrayRec.fresh with cond := .opened }
    line := { LineIf.reset with enabled := true, rx := .hunting }
    lanes := lanes
    table := { ConfigTable.reset with committed := words5, station := .online }
    pins := { Pins.reset with lvl := true } }

/-- A state put to rest: feeds, aspects and output lines follow it. -/
def rested (s : State) : State := s.finish s false

/-- A lane in a state, with a list of records. -/
def laneIn (st : LaneState) (parcels : List Parcel) : LaneCtl :=
  { LaneCtl.reset with state := st, parcels := parcels, tagCounter := 9 }

/-- A record of tag 4 at a place. -/
def parcelAt (place : Place) : Parcel :=
  { Parcel.fresh 4 with place := place, length := some 300, span := some .one }

/-- Lane 0 RUNNING with a list of records, lane 1 STOPPED. -/
def oneLane (parcels : List Parcel) : Two LaneCtl := ⟨laneIn .running parcels, .reset⟩

/-- At rest, ONLINE, lanes STOPPED. -/
def quiet : State := rested (station5 (.all .reset))

/-- `quiet` at another position, nothing counted. -/
def quietAt (S : Nat) : State :=
  { quiet with loop := { quiet.loop with S := S, frontier := S } }

/-- `quiet` in another station state. -/
def quietIn (st : Station) : State :=
  { quiet with table := { quiet.table with station := st } }

/-- The two records of trays 3 and 4 at a condition with a holder. -/
def withTrays (s : State) (c : Cond) (holder : Option Nat) : State :=
  let r := { TrayRec.fresh with cond := c, holder := holder }
  { s with trays := (s.trays.set 3 r).set 4 r }

/-- A plan of lane 0, slot 0, for tag 4 and tray 3. -/
def planFor (st : PlanState) (trigger : Nat) : Plan :=
  { tag := 4, span := .one, target := 3, aim := 1200, lead := 300, trigger := trigger, state := st
    double := false, aimReached := false }

/-- A state in which that plan lives: its tray OWN, its parcel at a place, its trigger armed. -/
def planned (st : PlanState) (place : Place) : State :=
  let s := station5 (oneLane [{ parcelAt place with planSlot := some .s0 }])
  { s with
    plans := { Four.all none with l0s0 := some (planFor st 900) }
    trig := { Four.all none with l0s0 := some 900 }
    trays := s.trays.set 3
      { TrayRec.fresh with cond := .own, plan := some { lane := .l0, tag := 4 } } }

/-- The CLAIM entry of that plan. -/
def claimEntry (phase : Phase) : TxEntry :=
  { kind := .claim .l0, tray := 3, span := .one, plan := some { lane := .l0, tag := 4 }
    phase := phase, ended := false }

/-- R46, R47: a frame whose last byte is 0x15 ends in two high bits, one of 0xD0 in its stop bit alone; ten
more find the end. -/
theorem test_idle_run_at_frame_end :
    endRun [0x96, 0xC9, 0x17, 0xCD, 0xC0, 0x7C, 0x23, 0x15] = 12 ∧ endRun [0x96, 0xD0] = 11 := by
  decide

/-- R49, R59, R60: a collision on the first stop bit keeps the start mark with the framing-fault mark; the
backoff of the first failure at station 5 is 24 + 6·16. -/
theorem test_stop_bit_collision :
    let s := { quiet with txq := [{ plainEntry .occupied 3 .one with phase := .sending }] }
    let t := after (exec (.attemptCollision 9) s)
    t.line.rxBuf = [0x96] ∧ t.line.rxFault = true ∧ t.line.attempt = 1 ∧ t.line.backoff = 120 := by
  decide +kernel

/-- R47, R59: after a collision on the first stop bit a frame that goes on, its last byte 0x15 and its last
stop bit good, ends in two high bits and ten; one that ends in the marked byte ends in ten alone. -/
theorem test_idle_run_after_collision :
    let s := { quiet with txq := [{ plainEntry .occupied 3 .one with phase := .sending }] }
    let t := after (exec (.attemptCollision 9) s)
    (after (exec (.receivedFrameRejected [0x96, 0x15] .good false) t)).line.idleRun = 12 ∧
      (after (exec (.receivedFrameRejected [0x96, 0x15] .lastLow false) t)).line.idleRun = 10 ∧
      (after (exec (.receivedFrameRejected [0x96] .good false) t)).line.idleRun = 10 ∧
      (after (exec (.receivedFrameRejected [0x96, 0x42, 0x15] .earlierLow false)
        quiet)).line.idleRun = 12 := by
  decide +kernel

/-- R105: STOP deletes a QUEUED parcel and leaves the launch that runs, its parcel and its plan. -/
theorem test_stop_keeps_running_launch :
    let e : Launch := { tray := 3, span := .one, double := false, mergeSeen := false,
                        aborted := false, timer := 7 }
    let r := { parcelAt .launching with planSlot := some .s0 }
    let s := { planned .launched .launching with
      lanes := ⟨{ laneIn .running [r, { parcelAt .queued with tag := 5 }] with launch := some e },
        .reset⟩ }
    let t := after (exec (.stop 0) s)
    t.lanes.l0.parcels = [r] ∧ t.lanes.l0.launch = some e ∧
      t.plans.l0s0 = some (planFor .launched 900) := by decide +kernel

/-- R56, R60: a CLAIM of an ended plan leaves at a collision and waits on after a line fault. -/
theorem test_ended_claim :
    let e := { claimEntry .sending with ended := true }
    let s := { quiet with txq := [e] }
    (after (exec (.attemptCollision 9) s)).txq = [] ∧
      (after (exec (.attemptCollision 0) s)).txq = [{ e with phase := .waiting }] := by decide +kernel

/-- R143: an interval that grew to 800 ms is waited for. -/
theorem test_go_pulse_waits :
    let s (n : Nat) := rested { station5 (oneLane []) with pace := { quiet.pace with lanes :=
      ⟨{ PaceLane.reset with aspect := .go, index := 3, valid := true, pulse := n }, .reset⟩ } }
    let t (n : Nat) := after (exec (.goPulse .l0) (s n))
    (t 799).outs.lampGo.l0 = false ∧ (t 799).pace.lanes.l0.pulse = 799 ∧
      (t 800).outs.lampGo.l0 = true ∧ (t 800).pace.lanes.l0.pulse = 0 := by decide +kernel

/-- R106, R165: a lane STOPPED already takes reason STATION without a report; R162: a pace index is kept. -/
theorem test_station_reason_and_pace :
    let t := after (exec .leavingEnd (quietIn .leaving))
    let u := after (exec .applyComplete { quietIn .applying with
      pace := { quiet.pace with lanes := .all { PaceLane.reset with index := 3 } }
      table := { quiet.table with
        station := .applying
        applying := some { copy := words5, fromConfigured := true, timer := 1 } } })
    t.lanes.l0.reason = .station ∧ t.rep.fifo = [] ∧ u.loop.lock = .unlocked ∧
      u.pace.lanes.l0.index = 3 := by decide +kernel

/-! ## Witnesses: hypotheses that a state meets -/

theorem witness_StepRunsFrontCommand :
    { quiet with pending := [.markerMissing, .apply] }.pending = .markerMissing :: [.apply] := by rfl

theorem witness_ResetRestoresEveryBlock :
    quiet.pins.rstLow = false ∧ (after (exec .resetLine quiet)).pins.rstLow = true ∧
      Instr.leave ≠ .resetLine ∧ Instr.leave ≠ .resetLineReleased := by decide +kernel

/-- Each timer one tick short of its limit and at its last tick before it. -/
theorem witness_TickMovesTimersAndQueuesExpiries :
    let e (n : Nat) : Launch := { tray := 3, span := .one, double := false, mergeSeen := false,
                                  aborted := false, timer := n }
    let s (d : Nat) := { station5 (.all { laneIn .running [] with
        transfer := some (19 - d), launch := some (e (19 - d)), buttonFilter := 19 - d }) with
      loop := { quiet.loop with windowTimer := 99 - d }
      pace := { quiet.pace with lanes :=
        ⟨{ PaceLane.reset with aspect := .go, index := 0, pulse := 499 - d },
         { PaceLane.reset with aspect := .wait, blink := 249 - d }⟩ } }
    quiet.pending = [] ∧ quiet.pins.rstLow = false ∧
      (after (exec .resetLine quiet)).pins.rstLow = true ∧
      (s 0).cfgTransferMs .l0 = 20 ∧ (s 0).cfgMergeMs .l0 = 20 ∧ (s 1).due = [] ∧
      ∀ c, c ∈ (s 0).due ↔ c = .windowEnd ∨ c = .transferTimeout .l0 ∨ c = .mergeTimeout .l0 ∨
        c = .buttonFilterElapsed .l0 ∨ c = .goPulse .l0 ∨ c = .transferTimeout .l1 ∨
        c = .mergeTimeout .l1 ∨ c = .buttonFilterElapsed .l1 ∨ c = .waitBlink .l1 := by
  refine ⟨?_, ?_, ?_, ?_, ?_, ?_, fun c => ?_⟩
  all_goals first | decide +kernel | skip
  rw [show State.due _ = [.windowEnd, .transferTimeout .l0, .mergeTimeout .l0,
    .buttonFilterElapsed .l0, .goPulse .l0, .transferTimeout .l1, .mergeTimeout .l1,
    .buttonFilterElapsed .l1, .waitBlink .l1] from by decide +kernel]
  simp

/-- A step that answers a next state from a state that meets every invariant, and one on each bound. -/
theorem witness_StepKeepsInvariants :
    let s := { quiet with pending := [.windowEnd] }
    s.withinBounds = true ∧ s.loopSound = true ∧ s.stationSound = true ∧ s.offlineIdle = true ∧
      s.atRest = true ∧ (∃ t, step s = .next t) := by
  refine ⟨?_, ?_, ?_, ?_, ?_, _, rfl⟩ <;> decide +kernel

theorem witness_StepKeepsInvariants_off_line :
    let s := { State.reset with pending := [.identify] }
    s.withinBounds = true ∧ s.loopSound = true ∧ s.stationSound = true ∧ s.offlineIdle = true ∧
      s.mapInUse = false ∧ s.atRest = true ∧ (∃ t, step s = .next t) := by
  refine ⟨?_, ?_, ?_, ?_, ?_, ?_, _, rfl⟩ <;> decide +kernel

/-- Every buffer and count at its bound: six records a lane is capacity + 3. -/
theorem witness_StepKeepsBuffersWithinBounds_at_bounds :
    let records := [0, 1, 2, 3, 4, 5].map fun t => { parcelAt .queued with tag := t }
    let c : LaneCtl := { laneIn .running records with
      measure := 3000, gapCount := 49, gapTest := some 3, buttonFilter := 20 }
    let s := { station5 (.all c) with
      port := { quiet.port with inbound := List.replicate 64 0 }
      rep := { quiet.rep with fifo := List.replicate 128 0 }
      txq := List.replicate 8 (plainEntry .defect 3 .one)
      line := { quiet.line with
        rxBuf := List.replicate 9 0, attempt := 15, backoff := 984, idleRun := 24, holdCount := 1000 }
      loop := { quiet.loop with vs := 600, windowCount := -65535, windowTimer := 99, standstill := 3 }
      doubt := 6400
      pace := { quiet.pace with lanes := .all { PaceLane.reset with index := 15, hyst := 4 } }
      table := { quiet.table with pointer := 47 } }
    s.stationSound = true ∧ s.offlineIdle = true ∧ s.withinBounds = true := by decide +kernel

theorem witness_StepKeepsLoopCountsInAgreement_at_bounds :
    let s := { quiet with loop := { quiet.loop with
      lock := .coasting, S := 6399, backlog := 3200, frontier := 3199, travel := 6410, missing := 1 } }
    s.stationSound = true ∧ s.loopSound = true := by decide +kernel

theorem witness_ComposedFrameReadsBack :
    let f : FrameData :=
      { kind := .claim .l1, station := 31, location := 2097151, tray := 1023, span := .two }
    f.station < 32 ∧ f.location < 2 ^ 21 ∧ f.tray < 1024 := by decide

theorem witness_ParserAssemblesMessages :
    let m := Message.loadWord 0x12345678
    let a : Assembly := { code := 0x21, bytes := [1, 2] }
    let s := { State.reset with
      port := { LocalPort.reset with inbound := [0x21, 0x12, 0x34, 0x56, 0x78, 0x40] }
      pending := List.replicate 5 Instr.parserByte ++ [Instr.apply] }
    (s.pins.rstLow = false ∧ s.port.assembly = none ∧ s.port.inbound = m.bytes ++ [0x40] ∧
        s.pending = List.replicate m.bytes.length Instr.parserByte ++ [Instr.apply]) ∧
      quiet.port.inbound = [] ∧ messageLength 0x15 = none ∧ messageLength 0x11 = some 2 ∧
      messageLength a.code = some 5 ∧ a.bytes.length + 2 < 5 := by decide +kernel

/-- The clauses, each at a bound of the window count, the backlog or the travel. -/
theorem witness_EncoderCountMovesCounts :
    let u := rested { quiet with loop := { LoopTracker.reset with windowCount := 65534 } }
    let b := { quiet with loop := { quiet.loop with backlog := 3199, windowCount := -65534 } }
    let f := { quiet with loop := { quiet.loop with backlog := 1, travel := 6409, windowCount := 65534 } }
    let q := { quiet with loop := { quiet.loop with travel := 6409, windowCount := -65535 } }
    let n := { quietAt 6399 with loop := { quiet.loop with
      S := 6399, frontier := 6399, travel := 6409, windowCount := 65534 } }
    (u.atRest = true ∧ u.loop.lock = .unlocked ∧ u.loop.windowCount + 1 ≤ 65535) ∧
      (b.atRest = true ∧ b.loop.lock ≠ .unlocked ∧ b.loop.backlog + 1 ≤ b.loopLength / 2 ∧
        -65534 ≤ b.loop.windowCount) ∧
      (f.atRest = true ∧ 0 < f.loop.backlog ∧ f.loop.travel + 1 ≤ f.loopLength + f.cfgSlip ∧
        f.loop.windowCount ≤ 65534) ∧
      (q.atRest = true ∧ q.reachesQuietly = true ∧ q.trayEventsAt q.nextS = []) ∧
      n.reachesNext = true ∧ n.table.station ≠ .leaving := by decide +kernel

theorem witness_LockLossClearsTheLoop :
    let a := { quiet with loop := { quiet.loop with backlog := 3200 } }
    let b := quietAt 11
    let c := quietAt 6389
    let d := { quiet with loop := { quiet.loop with lock := .coasting, missing := 1, travel := 6410 } }
    (a.loopLength / 2 < a.loop.backlog + 1 ∧ a.table.station = .online ∧
      a.tray? 15 = some { TrayRec.fresh with cond := .opened } ∧ a.rep.fifo.length + 3 ≤ 128) ∧
      (2 * b.loop.S ≤ b.loopLength ∧ b.cfgSlip < b.loop.S) ∧
      (c.loopLength < 2 * c.loop.S ∧ c.cfgSlip < c.loopLength - c.loop.S) ∧
      (d.loop.lock ≠ .unlocked ∧ d.loop.missing ≠ 0) ∧
      (d.loopLength + d.cfgSlip < d.loop.travel + 1 ∧ d.triggersAt d.nextS = [] ∧
        d.trayEventsAt d.nextS = []) := by decide +kernel

theorem witness_MarkerAcquiresOrConfirmsLock :
    let u := { quiet with loop := LoopTracker.reset }
    let b := { quietAt 10 with loop := { quiet.loop with
      lock := .coasting, S := 10, frontier := 3200, backlog := 3190, missing := 1 } }
    let f := { quietAt 6390 with loop := { quiet.loop with S := 6390, frontier := 0, backlog := 10 } }
    (u.loop.lock = .unlocked ∧ u.cfgT ≠ 0 ∧ u.trig = .all none ∧ u.trayEventsAt 0 = [.arrival 0] ∧
        u.rep.fifo.length + 3 ≤ 128) ∧
      (State.reset.loop.lock = .unlocked ∧ State.reset.cfgT = 0 ∧ State.reset.atRest = true) ∧
      (b.loop.S < b.loopLength ∧ 2 * b.loop.S ≤ b.loopLength ∧ b.loop.S ≤ b.cfgSlip ∧
        b.loop.backlog + b.loop.S ≤ b.loopLength / 2) ∧
      (f.loop.S < f.loopLength ∧ f.loopLength < 2 * f.loop.S ∧ f.loopLength - f.loop.S ≤ f.cfgSlip ∧
        f.loopLength - f.loop.S ≤ f.loop.backlog) := by
  decide +kernel

theorem witness_MissingMarkerCoasts :
    let s (b : Nat) := { quiet with loop := { quiet.loop with
      backlog := b, travel := 6410, windowCount := 65534 } }
    quiet.pins.rstLow = false ∧ quiet.loop.lock ≠ .unlocked ∧ quiet.loop.missing = 0 ∧
      (s 0).loopLength + (s 0).cfgSlip < (s 0).loop.travel + 1 ∧ (s 0).triggersAt (s 0).nextS = [] ∧
      (s 0).trayEventsAt (s 0).nextS = [] ∧ (s 0).aims = .all none ∧ (s 1).loop.backlog ≠ 0 := by
  decide +kernel

theorem witness_WindowEndFormsSpeedAndMotion :
    quiet.pins.rstLow = false ∧ quiet.loop.overspeed = false ∧ quiet.loop.motion = .moving ∧
      (after (exec .windowEnd
        { quiet with loop := { quiet.loop with standstill := 2 } })).loop.motion = .stopped := by
  decide +kernel

/-- Tray 2's check falls at 200, at the last count before the marker is overdue. -/
theorem witness_CheckEventReconcilesRecord :
    let s (c : Cond) := { quietAt 199 with
      loop := { quiet.loop with S := 199, frontier := 199, travel := 6409, windowCount := 65534 }
      txq := List.replicate 7 (plainEntry .release 9 .one)
      trays := quiet.trays.set 2 { TrayRec.fresh with cond := c } }
    ∀ c ∈ [Cond.opened, .heldAhead, .heldBehind, .loadedAhead, .stray, .learning, .passed,
        .defective], (s c).reachesQuietly = true ∧
      (s c).trayEventsAt (s c).nextS = [.check 2] ∧ (s c).table.station = .online ∧
      (s c).tray? 2 = some { TrayRec.fresh with cond := c } ∧ (s c).line.enabled = true ∧
      (s c).txq.length < 8 ∧ (s c).hasTwin (plainEntry .occupied 2 .one) = false ∧
      (s c).hasTwin (plainEntry .defect 2 .one) = false := by decide +kernel

/-- The plan's tray 3 is checked at 600: the plan not launched, its CLAIM queued or sent, and launched with
the merge eye not yet and already blocked, the queue with its last two entries free. -/
theorem witness_CheckEventOfOwnRecord :
    let e (seen : Bool) : Launch := { tray := 3, span := .one, double := false, mergeSeen := seen,
                                      aborted := false, timer := 0 }
    let others := List.replicate 5 (plainEntry .release 9 .one)
    let s (st : PlanState) (place : Place) (run : Option Launch) :=
      let s0 := planned st place
      { s0 with
        loop := { s0.loop with S := 599, frontier := 599, vs := 49, travel := 6409 }
        txq := others ++ [if st = PlanState.tentative then claimEntry .waiting else plainEntry .release 10 .one]
        lanes := ⟨{ s0.lanes.l0 with launch := run }, .reset⟩ }
    let own : TrayRec := { TrayRec.fresh with cond := .own, plan := some { lane := .l0, tag := 4 } }
    (∀ x ∈ [s .tentative .holding none, s .claimed .ready none, s .launched .launching (some (e false)),
        s .launched .launching (some (e true))],
      x.reachesQuietly = true ∧ x.trayEventsAt x.nextS = [.check 3] ∧ x.table.station = .online ∧
        x.mayPlan = false ∧ x.line.enabled = true ∧ x.tray? 3 = some own ∧
        x.slotOf? .l0 4 = some .s0 ∧ x.plan .l0 .s1 = none ∧ x.txq.length + 2 ≤ 8 ∧
        x.hasTwin (plainEntry .occupied 3 .one) = false ∧
        x.hasTwin (plainEntry .defect 3 .one) = false ∧
        x.hasTwin (plainEntry .release 3 .one) = false) ∧
      (s .tentative .holding none).txq = others ++ claimEntry .waiting :: [] ∧
      (∀ q ∈ others, q.plan ≠ some { lane := .l0, tag := 4 }) ∧
      (s .launched .launching (some (e false))).plan .l0 .s0 = some (planFor .launched 900) ∧
      ((s .launched .launching none).lane .l0).at? .launching =
        some { parcelAt .launching with planSlot := some .s0 } ∧
      ((s .launched .launching none).lane .l0).state = .running := by decide +kernel

/-- Tray 1 arrives at 400; tray 1's zone exit falls at 1500. -/
theorem witness_ArrivalAndZoneExitMoveRecord :
    let a := quietAt 399
    let z := quietAt 1499
    (∀ l, a.offered l = []) ∧ a.trayEventsAt a.nextS = [.arrival 1] ∧ a.reachesQuietly = true ∧
      (∀ l, z.offered l = []) ∧ z.trayEventsAt z.nextS = [.zoneExit 1] ∧ z.staleEntries 1 = [] ∧
      a.tray? 1 = some { TrayRec.fresh with cond := .opened } ∧ z.table.station = .online ∧
      z.reachesQuietly = true := by
  refine ⟨fun l => ?_, ?_, ?_, fun l => ?_, ?_, ?_, ?_, ?_, ?_⟩ <;>
    first | decide +kernel | (cases l <;> decide +kernel)

/-- The aim ahead of the position reached, and at it. -/
theorem witness_TriggerLaunchesReadyParcel :
    let p (aim : Nat) := { planFor .claimed 900 with aim := aim }
    let s (aim : Nat) := { planned .claimed .ready with
      loop := { quiet.loop with S := 899, frontier := 899, travel := 6409 }
      plans := { Four.all none with l0s0 := some (p aim) } }
    let a := { s 900 with trig := .all none, aims := { Four.all none with l0s0 := some 900 } }
    let r := { parcelAt .ready with planSlot := some .s0 }
    (∀ aim ∈ [900, 1200], (s aim).loopSound = true ∧ (s aim).reachesNext = true ∧ (s aim).trayEventsAt (s aim).nextS = [] ∧
        (s aim).plan .l0 .s0 = some (p aim) ∧ (s aim).triggersAt (s aim).nextS = [(.l0, .s0)] ∧
        ((s aim).lane .l0).bySlot? .s0 = some r ∧ r.place = .ready ∧ r.tag = (p aim).tag) ∧
      (s 1200).fd (s 1200).nextS 1200 ≠ 0 ∧ (s 900).fd (s 900).nextS 900 = 0 ∧
      a.loopSound = true ∧ a.reachesNext = true ∧ a.triggersAt a.nextS = [] ∧
      a.aims.get .l0 .s0 = some a.nextS := by
  decide +kernel

/-- A TENTATIVE plan, a CLAIMED one whose parcel is not READY, at the third miss and the fourth, and a lane
with a plan of a later and of an earlier parcel. -/
theorem witness_MissedTriggerEndsPlan :
    let r (n : Nat) (place : Place) : Parcel :=
      { parcelAt place with planSlot := some .s0, misses := n }
    let second : Parcel := { parcelAt .holding with tag := 5, planSlot := some .s1 }
    let q : Plan := { planFor .tentative 1300 with tag := 5, target := 6, aim := 2400 }
    let s (st : PlanState) (ps : List Parcel) (other : Option Plan) :=
      let s0 := planned st .holding
      { s0 with
        loop := { s0.loop with S := 899, frontier := 899, vs := 49, travel := 6409 }
        lanes := oneLane ps
        txq := List.replicate 5 (plainEntry .release 9 .one) ++
          [if st = PlanState.tentative then claimEntry .waiting else plainEntry .release 10 .one]
        plans := { s0.plans with l0s1 := other } }
    (∀ st ∈ [PlanState.tentative, .claimed], ∀ n ∈ [2, 3],
      ∀ x ∈ [s st [r n .holding] none, s st [r n .holding, second] (some q),
        s st [second, r n .holding] (some q)],
      x.reachesNext = true ∧ x.triggersAt x.nextS = [(.l0, .s0)] ∧ x.trayEventsAt x.nextS = [] ∧
        x.table.station = .online ∧ x.mayPlan = false ∧ x.line.enabled = true ∧
        x.txq.length + 2 ≤ 8 ∧ x.aims.get .l0 .s1 ≠ some x.nextS ∧
        (x.lane .l0).bySlot? .s0 = some (r n .holding) ∧
        (x.lane .l0).parcel? 4 = some (r n .holding) ∧ (x.lane .l0).state = .running ∧
        (r n .holding).named = none ∧ x.hasTwin (plainEntry .release 3 .one) = false) ∧
      ((s .claimed [r 0 .holding, second] (some q)).lane .l0).rank 4 <
        ((s .claimed [r 0 .holding, second] (some q)).lane .l0).rank 5 ∧
      ¬ ((s .claimed [second, r 0 .holding] (some q)).lane .l0).rank 4 <
        ((s .claimed [second, r 0 .holding] (some q)).lane .l0).rank 5 := by decide +kernel

theorem witness_AimSearchFindsNearestAcceptedTray :
    quiet.validated = true ∧ quiet.loop.S < quiet.loopLength ∧
      quiet.searchAim .l0 200 .one = some 1 ∧ quiet.searchAim .l0 201 .one = some 2 ∧
      quiet.searchAim .l1 2900 .one = none := by decide +kernel

theorem witness_GrantedClaimMakesTentativePlan :
    let s := { quiet with txq := List.replicate 5 (plainEntry .release 9 .one) }
    s.loop.lock ≠ .unlocked ∧ s.grants 15 .two = true ∧
      s.tray? 15 = some { TrayRec.fresh with cond := .opened } ∧
      s.alreadyReached (s.fd 300 (s.aimOf 15 .two)) = false ∧ s.nextTray 15 ≠ 15 ∧
      s.tray? (s.nextTray 15) = some { TrayRec.fresh with cond := .opened } := by decide +kernel

/-- A lane alone, two lanes by hold time and by the arbiter record, a refused request, no tray found by the
first lane, and the two moments that raise a planning event. -/
theorem witness_PlanningEventServesLanes :
    let r (hold : Nat) (sp : Span) : Parcel := { parcelAt .holding with
      dest := some ⟨5, false⟩, holdTick := some (BitVec.ofNat _ hold), span := some sp }
    let c (hold : Nat) := laneIn .running [r hold .one]
    let one := station5 ⟨c 3, .reset⟩
    let two (a b : Nat) := { station5 ⟨c a, c b⟩ with
      planner := { suspended := .all false, arbiter := .l1 } }
    let full := { one with txq := List.replicate 6 (plainEntry .release 9 .one) }
    let far := { two 3 4 with
      lanes := ⟨c 3, laneIn .running [r 4 .two]⟩
      table := { quiet.table with committed := words5.set 7 500 } }
    let grantable (s : State) (l : Lane) (q : Parcel) (k : Nat) := s.leadOf l q + s.cfgG ≤ s.cfgH ∧
      s.searchAim l (s.leadOf l q) (q.span.getD .one) = some k ∧
      s.grants k (q.span.getD .one) = true ∧ s.freeSlot? l = some .s0 ∧
      s.alreadyReached (s.fd (s.leadOf l q) (s.aimOf k (q.span.getD .one))) = false ∧
      ((s.lane l).parcels.map Parcel.tag).Nodup
    (one.takesPart .l0 = true ∧ one.takesPart .l1 = false ∧ one.offered .l0 = r 3 .one :: [] ∧
        grantable one .l0 (r 3 .one) 2 ∧ one.table.station = .online ∧
        one.loop.lock ≠ .unlocked ∧ one.cfgMinSpeed ≤ one.loop.vs) ∧
      ((two 3 4).takesPart .l0 = true ∧ (two 3 4).takesPart .l1 = true ∧
        ((two 3 4).firstHold .l0 - (two 3 4).firstHold .l1).toInt = -1 ∧
        grantable (two 3 4) .l0 (r 3 .one) 2) ∧
      (((two 3 3).firstHold .l0 - (two 3 3).firstHold .l1).toInt = 0 ∧
        (two 3 3).planner.arbiter = otherLane .l0) ∧
      (full.takesPart .l0 = true ∧ full.leadOf .l0 (r 3 .one) + full.cfgG ≤ full.cfgH ∧
        full.searchAim .l0 (full.leadOf .l0 (r 3 .one)) .one = some 2 ∧
        full.grants 2 .one = false) ∧
      (far.takesPart .l0 = true ∧ far.takesPart .l1 = true ∧
        far.leadOf .l0 (r 3 .one) + far.cfgG ≤ far.cfgH ∧
        far.searchAim .l0 (far.leadOf .l0 (r 3 .one)) .one = none ∧
        grantable far .l1 (r 4 .two) 1) := by decide +kernel

theorem witness_PlanningEventServesLanes_raised :
    let own : TrayRec := { TrayRec.fresh with cond := .own }
    let a := { quietAt 399 with trays := quiet.trays.set 1 own }
    let ready : Parcel := { parcelAt .ready with dest := some ⟨5, false⟩, holdTick := some 3 }
    let next : Parcel := { parcelAt .queued with tag := 5 }
    let h := rested (station5 (oneLane [ready, next]))
    (a.pins.rstLow = false ∧ a.atRest = true ∧ a.table.station = .online ∧
        a.reachesQuietly = true ∧ a.trayEventsAt a.nextS = [.arrival 1] ∧ a.tray? 1 = some own) ∧
      (h.pins.rstLow = false ∧ h.atRest = true ∧ h.table.station = .online ∧
        (h.lane .l0).feed = true ∧ (h.lane .l0).launchTaken = true ∧
        (h.lane .l0).at? .queued = some next ∧ ((h.lane .l0).parcels.map Parcel.tag).Nodup) := by
  decide +kernel

/-- λ = 225 and G = 100, at H = 324 and 325. -/
theorem witness_LeadRangeSuspendsLane :
    let r : Parcel := { parcelAt .holding with dest := some ⟨5, false⟩, holdTick := some 3 }
    let s (h : Nat) (set : Bool) := { station5 (oneLane [r]) with
      table := { quiet.table with committed := words5.set 7 (BitVec.ofNat 32 h) }
      planner := { suspended := ⟨set, false⟩, arbiter := .l0 } }
    ∀ h ∈ [324, 325], ∀ set ∈ [false, true], (s h set).mayPlan = true ∧
      (s h set).takesPart .l1 = false ∧ (s h set).planner.suspended.get .l0 = set ∧
      (s h set).offered .l0 = r :: [] ∧ (s h set).leadOf .l0 r + (s h set).cfgG = 325 ∧
      (s h set).cfgH = h ∧ (s h set).plans = .all none ∧ (s h set).pins.rstLow = false := by
  decide +kernel

/-- At vs = 100 the lead is 225: the aim one count nearer, at that distance, and beyond it. -/
theorem witness_WindowEndRetimesPlans :
    let r (place : Place) : Parcel := { parcelAt place with planSlot := some .s0 }
    let s (st : PlanState) (S : Nat) :=
      let s0 := planned st .ready
      { s0 with loop := { s0.loop with S := S, frontier := S, windowCount := 100 } }
    (∀ st ∈ [PlanState.tentative, .claimed], ∀ S ∈ [974, 975, 976],
        (s st S).pins.rstLow = false ∧ (s st S).loop.lock ≠ .unlocked ∧
          (s st S).table.station = .online ∧ (s st S).plan .l0 .s0 = some (planFor st 900) ∧
          (s st S).plan .l0 .s1 = none ∧ (s st S).plan .l1 .s0 = none ∧
          (s st S).plan .l1 .s1 = none ∧ ((s st S).lane .l0).bySlot? .s0 = some (r .ready) ∧
          ((s st S).lane .l0).state ≠ .stopped ∧ ((s st S).trig.get .l0 .s0).isSome = true ∧
          (s st S).leadAt .l0 ((r .ready).length.getD 0) 100 = 225) ∧
      (s .claimed 974).fd 974 1200 = 226 ∧ (s .claimed 975).fd 975 1200 = 225 ∧
      (s .claimed 976).fd 976 1200 = 224 ∧
      (s .claimed 974).alreadyReached ((s .claimed 974).fd 225 1200) = false ∧
      (s .claimed 975).alreadyReached ((s .claimed 975).fd 225 1200) = true ∧
      (s .launched 974).plan .l0 .s0 = some (planFor .launched 900) := by decide +kernel

/-- In reach of the nominal parcel the loop has trays for both lanes; the entry below, at and above the one
called, with four and with three calls standing. -/
theorem witness_WindowEndSetsPaces :
    let s (run : LaneState) (index hyst : Nat) := { station5 ⟨laneIn run [], laneIn .running []⟩ with
      loop := { quiet.loop with windowCount := 100 }
      pace := { quiet.pace with
        lanes := .all { PaceLane.reset with index := index, hyst := hyst } } }
    (∀ run ∈ [LaneState.running, .paused], ∀ hyst ∈ [3, 4],
      (s run 15 hyst).pins.rstLow = false ∧ (s run 15 hyst).validated = true ∧
        (s run 15 hyst).loop.S < (s run 15 hyst).loopLength ∧
        (s run 15 hyst).plans = .all none ∧
        (after (exec .windowEnd (s run 15 hyst))).loop.motion = .moving) ∧
      (after (exec .windowEnd (s .running 15 3))).pace.target = some 800 ∧
      Config.cadence[3]? = some 800 ∧ Config.cadence[2]? = some 700 := by decide +kernel

/-- The pulse timer one short of the interval and at it, the blink timer on both sides of 250. -/
theorem witness_LampTimersDriveLamps :
    let s (p : PaceLane) := rested { station5 (oneLane []) with
      pace := { quiet.pace with lanes := ⟨p, PaceLane.reset⟩ } }
    let go (n : Nat) := s { PaceLane.reset with aspect := .go, index := 15, valid := true, pulse := n }
    let wait (n : Nat) := s { PaceLane.reset with aspect := .wait, blink := n }
    (∀ n ∈ [5999, 6000], (go n).pins.rstLow = false ∧ (go n).atRest = true ∧
        ((go n).pace.lanes.get .l0).aspect = .go ∧
        interval ((go n).pace.lanes.get .l0).index = 6000) ∧
      (∀ n ∈ [249, 250], (wait n).atRest = true ∧
        ((wait n).pace.lanes.get .l0).aspect = .wait) := by decide +kernel

/-- From X itself, which counts as ahead, and from just behind it; a pair refused, and a pair of which one
tray is OPEN. -/
theorem witness_HeardClaimHoldsOpenTrays :
    quiet.pins.rstLow = false ∧ quiet.hears = true ∧ quiet.line.rxFault = false ∧
      quiet.mapInUse = true ∧ quiet.atRest = true ∧
      quiet.tray? 15 = some { TrayRec.fresh with cond := .opened } ∧
      quiet.tray? (quiet.nextTray 15) = some { TrayRec.fresh with cond := .opened } ∧
      quiet.nextTray 15 ≠ 15 ∧ quiet.zoneOffset 1000 ≤ quiet.zoneOffset quiet.cfgX ∧
      ¬ quiet.zoneOffset 1001 ≤ quiet.zoneOffset quiet.cfgX ∧
      (∀ x ∈ [1000, 1001, 2099], quiet.fieldReject
        { kind := .claim .l0, station := 7, location := x, tray := 15, span := .one } = none) ∧
      (let s := withTrays quiet .heldAhead (some 7)
       s.atRest = true ∧ s.tray? 3 = some { TrayRec.fresh with cond := .heldAhead, holder := some 7 }) ∧
      (let sent := planned .claimed .ready
       (rested sent).atRest = true ∧
         (rested sent).planStateOf? { TrayRec.fresh with
           cond := .own, plan := some { lane := .l0, tag := 4 } } = some .claimed) ∧
      ∀ c ∈ [Cond.loadedAhead, .learning, .stray, .passed, .defective],
        let s := withTrays quiet c none
        s.atRest = true ∧ s.nextTray 4 ≠ 4 ∧ s.nextTray 2 ≠ 2 ∧
          s.tray? 2 = some { TrayRec.fresh with cond := .opened } ∧
          s.tray? (s.nextTray 2) = some { TrayRec.fresh with cond := c } ∧
          s.tray? 4 = some { TrayRec.fresh with cond := c } ∧
          s.tray? (s.nextTray 4) = some { TrayRec.fresh with cond := .opened } := by
  decide +kernel

/-- From X itself and from just behind it, at a plan in each state, the queue with its last entry free; the
next tray OPEN, and OWN for the other lane's TENTATIVE plan. -/
theorem witness_HeardFrameMeetsOwnRecord :
    let others := List.replicate 6 (plainEntry .release 9 .one)
    let s (st : PlanState) (place : Place) :=
      let s0 := planned st place
      { s0 with
        loop := { s0.loop with vs := 49 }
        txq := others ++
          [if st = PlanState.tentative then claimEntry .waiting else plainEntry .release 10 .one] }
    let own : TrayRec := { TrayRec.fresh with cond := .own, plan := some { lane := .l0, tag := 4 } }
    (∀ x ∈ [s .tentative .holding, s .claimed .ready, s .launched .launching],
      x.pins.rstLow = false ∧ x.hears = true ∧ x.line.rxFault = false ∧
        x.table.station = .online ∧ x.mayPlan = false ∧
        (∀ loc ∈ [1000, 1001], x.fieldReject
          { kind := .defect, station := 7, location := loc, tray := 3, span := .one } = none) ∧
        x.tray? 3 = some own ∧ x.slotOf? .l0 4 = some .s0 ∧ x.plan .l0 .s1 = none ∧
        x.txq.length < 8 ∧ x.hasTwin (plainEntry .release 3 .one) = false) ∧
      (s .tentative .holding).plan .l0 .s0 = some (planFor .tentative 900) ∧
      (s .tentative .holding).txq = others ++ claimEntry .waiting :: [] ∧
      (∀ q ∈ others, q.plan ≠ some { lane := .l0, tag := 4 }) ∧
      (let x := s .tentative .holding
       let q : TrayRec := { TrayRec.fresh with
         cond := .own, plan := some { lane := .l1, tag := 5 } }
       let y := { x with
         plans := { x.plans with l1s0 := some { planFor .tentative 900 with tag := 5, target := 4 } }
         trays := x.trays.set 4 q }
       x.nextTray 3 ≠ 3 ∧ x.tray? (x.nextTray 3) = some { TrayRec.fresh with cond := .opened } ∧
         y.tray? 3 = some own ∧ y.tray? (y.nextTray 3) = some q ∧ y.slotOf? .l0 4 = some .s0 ∧
         y.slotOf? .l1 5 = some .s0 ∧ y.plan .l1 .s1 = none ∧ y.mayPlan = false ∧
         (y.plan .l1 .s0).map Plan.state = some .tentative) ∧
      quiet.zoneOffset 1000 ≤ quiet.zoneOffset quiet.cfgX ∧
      ¬ quiet.zoneOffset 1001 ≤ quiet.zoneOffset quiet.cfgX := by decide +kernel

theorem witness_HeardReleaseOpensItsOwnHolding :
    let s := withTrays quiet .heldBehind (some 7)
    s.hears = true ∧ s.line.rxFault = false ∧ s.mapInUse = true ∧ s.atRest = true ∧
      s.tray? 3 = some { TrayRec.fresh with cond := .heldBehind, holder := some 7 } ∧
      s.tray? (s.nextTray 3) = some { TrayRec.fresh with cond := .heldBehind, holder := some 7 } ∧
      s.fieldReject { kind := .release, station := 7, location := 0, tray := 3, span := .one } = none ∧
      s.fieldReject { kind := .release, station := 8, location := 2099, tray := 3, span := .one } =
        none := by decide +kernel

theorem witness_HeardTakenTrayFollowsSender :
    let s := withTrays quiet .stray (some 7)
    quiet.hears = true ∧ quiet.line.rxFault = false ∧ quiet.atRest = true ∧ s.atRest = true ∧
      quiet.tray? 3 = some { TrayRec.fresh with cond := .opened } ∧
      quiet.tray? (quiet.nextTray 3) = some { TrayRec.fresh with cond := .opened } ∧
      s.tray? 3 = some { TrayRec.fresh with cond := .stray, holder := some 7 } ∧
      (∀ x ∈ [1000, 1001], quiet.fieldReject
        { kind := .occupied, station := 7, location := x, tray := 3, span := .one } = none) ∧
      quiet.zoneOffset 1000 ≤ quiet.zoneOffset quiet.cfgX ∧
      quiet.zoneOffset quiet.cfgX < quiet.zoneOffset 1001 := by decide +kernel

theorem witness_HeardDefectMarksTray :
    let s := withTrays quiet .defective none
    quiet.hears = true ∧ quiet.line.rxFault = false ∧ quiet.mapInUse = true ∧ s.atRest = true ∧
      quiet.tray? 15 = some { TrayRec.fresh with cond := .opened } ∧
      quiet.tray? (quiet.nextTray 15) = some { TrayRec.fresh with cond := .opened } ∧
      s.tray? 3 = some { TrayRec.fresh with cond := .defective } ∧
      quiet.fieldReject { kind := .defect, station := 7, location := 2099, tray := 15, span := .one } =
        none := by decide +kernel

theorem witness_ReceiverRejectsFrames :
    let f (k x st : Nat) : FrameData :=
      { kind := .occupied, station := st, location := x, tray := k, span := .one }
    let rx (r : Receiver) (fault : Bool) := { quiet with line := { quiet.line with
      rx := r, rxFault := fault, rxBuf := if fault then List.replicate 8 0 else [] } }
    quiet.pins.rstLow = false ∧ quiet.hears = true ∧ quiet.mapInUse = true ∧
      parseFrame [] false = .error .length ∧ parseFrame (frameBytes (f 3 0 7)) true = .error .crc ∧
      (∀ g ∈ [f 16 0 7, f 3 2100 7, f 3 0 5], parseFrame (frameBytes g) false = .ok g) ∧
      quiet.fieldReject (f 16 0 7) = some .tray ∧ quiet.fieldReject (f 3 2100 7) = some .location ∧
      quiet.fieldReject (f 3 0 5) = some .twin ∧ (rx .receiving true).hears = true ∧
      (frameBytes (f 3 0 7)).length = (rx .receiving true).line.rxBuf.length ∧
      heardFrame (.occupiedHeard 7 0 3 .one) = some (f 3 0 7) ∧
      (rx .discarding false).hears = false ∧ (rx .discarding false).line.enabled = true ∧
      State.reset.line.enabled = false := by decide +kernel

/-- A full queue whose newest waiting CLAIM leaves, one without a CLAIM, one with the twin, and the zone
exit of tray 3 with a frame and with a CLAIM waiting for it. -/
theorem witness_QueueDropsTwinsMakesRoomAndGoesStale :
    let s (S : Nat) (txq : List TxEntry) :=
      let s0 := planned .tentative .holding
      { s0 with loop := { s0.loop with S := S, frontier := S, vs := 49, travel := 6409 }, txq := txq }
    let sent := { claimEntry .sending with plan := none }
    let older := sent :: List.replicate 3 (plainEntry .release 9 .one)
    let younger := List.replicate 3 (plainEntry .release 10 .one)
    let own := plainEntry .occupied 2 .one
    let gone := plainEntry .release 3 .one
    (∀ q ∈ [claimEntry .waiting, plainEntry .release 9 .one, own],
      (s 199 (older ++ q :: younger)).reachesQuietly = true ∧
        (s 199 (older ++ q :: younger)).table.station = .online ∧
        (s 199 (older ++ q :: younger)).mayPlan = false ∧
        (s 199 (older ++ q :: younger)).line.enabled = true ∧
        (s 199 (older ++ q :: younger)).trayEventsAt 200 = [.check 2] ∧
        ((s 199 (older ++ q :: younger)).tray? 2).map TrayRec.cond = some .opened ∧
        (s 199 (older ++ q :: younger)).hasTwin own = (q.kind == .occupied) ∧
        (s 199 (older ++ q :: younger)).txq.length = 8 ∧
        (s 199 (older ++ q :: younger)).slotOf? .l0 4 = some .s0 ∧
        (s 199 (older ++ q :: younger)).plan .l0 .s1 = none) ∧
      (∀ q ∈ older ++ younger, q.plan ≠ some { lane := .l0, tag := 4 }) ∧
      (∀ q ∈ sent :: List.replicate 7 (plainEntry .release 9 .one),
        q.kind.isClaim = true → q.phase = .sending) ∧
      (∀ q ∈ [claimEntry .waiting, gone],
        (s 2299 (older ++ q :: younger)).reachesQuietly = true ∧
        (s 2299 (older ++ q :: younger)).trayEventsAt 2300 = [.zoneExit 3] ∧ q.tray = 3) ∧
      (∀ q ∈ older ++ younger, q.tray = 3 → q.phase = .sending) := by decide +kernel

/-- A CLAIM whose re-check passes, whose plan is gone, that is marked as of an ended plan with the parcel
planned anew, and whose tray is no longer the plan's. -/
theorem witness_AttemptSendsHead :
    let s := { planned .tentative .holding with txq := [claimEntry .waiting] }
    let g := { quiet with txq := [claimEntry .waiting] }
    let gone := { claimEntry .waiting with ended := true }
    let n := { s with txq := [gone, claimEntry .waiting] }
    let f := { s with loop := { s.loop with vs := 49 }, trays := quiet.trays }
    (s.line.enabled = true ∧ s.line.backoff = 0 ∧ s.recheck (claimEntry .waiting) = true) ∧
      g.slotOf? .l0 4 = none ∧ g.table.station ≠ .leaving ∧
      (claimEntry .waiting).kind.isClaim = true ∧
      (n.line.enabled = true ∧ n.line.backoff = 0 ∧ gone.kind.isClaim = true ∧ gone.ended = true ∧
        n.slotOf? .l0 4 = some .s0 ∧ n.table.station ≠ .leaving) ∧
      (f.line.enabled = true ∧ f.line.backoff = 0 ∧ f.slotOf? .l0 4 = some .s0 ∧
        f.plan .l0 .s0 = some (planFor .tentative 900) ∧ f.recheck (claimEntry .waiting) = false ∧
        f.plan .l0 .s1 = none ∧ f.mayPlan = false ∧ f.table.station ≠ .leaving) := by
  decide +kernel

/-- At the fifteenth failure and the sixteenth, at the frame's first bit, a start bit sent 0, at a stop bit
sent 1, and at the frame's last bit, for a live entry and a CLAIM of an ended plan. -/
theorem witness_FailedAttemptBacksOff :
    let e (ph : Phase) : TxEntry := { plainEntry .occupied 3 .one with phase := ph }
    let gone := { claimEntry .sending with ended := true }
    let s (q : TxEntry) (n : Nat) := { quiet with
      txq := [q], line := { quiet.line with attempt := n, backoff := 1 } }
    let bits (q : TxEntry) := frameBits ((s q 14).frameOf q)
    (∀ n ∈ [14, 15], (s (e .sending) n).pins.rstLow = false ∧ (s (e .sending) n).line.enabled = true ∧
        (s (e .sending) n).line.attempt = n ∧ (s (e .waiting) n).txq = e .waiting :: []) ∧
      (e .sending).ended = false ∧ (e .sending).kind.isClaim = false ∧
      quiet.table.station ≠ .leaving ∧ (bits (e .sending))[0]? = some false ∧
      (bits (e .sending))[9]? = some true ∧ (bits (e .sending))[79]? = some true ∧
      (bits (e .sending))[80]? = none ∧ (bits gone)[0]? = some false ∧
      (bits gone)[9]? = some true ∧ gone.ended = true := by decide +kernel

theorem witness_CompletedFrameLeavesQueue :
    let s := { planned .tentative .holding with txq := [claimEntry .sending] }
    let e := { claimEntry .sending with ended := true }
    let g := { quiet with txq := e :: List.replicate 7 (plainEntry .release 9 .one) }
    (s.line.enabled = true ∧ s.table.station ≠ .leaving ∧ s.slotOf? .l0 4 = some .s0 ∧
        s.plan .l0 .s0 = some (planFor .tentative 900)) ∧
      (List.replicate 7 (plainEntry .release 9 .one)).length < 8 ∧
      (∀ q ∈ List.replicate 7 (plainEntry .release 9 .one),
        q.kind = .release → q.tray ≠ (claimEntry .sending).tray) ∧
      g.table.station ≠ .leaving := by decide +kernel

/-- A frame that is no CLAIM on a station LEAVING with one entry behind it, a CLAIM whose plan is gone, one
marked as of an ended plan, and one of a TENTATIVE plan, alone in its lane, its tray OWN. -/
theorem witness_AbandonedHeadLeavesQueue :
    let s0 := planned .tentative .holding
    let s := { s0 with
      loop := { s0.loop with vs := 49 }
      txq := [claimEntry .waiting, plainEntry .release 9 .one] }
    let g := { quiet with txq := [claimEntry .waiting] }
    let v := { quietIn .leaving with txq := [plainEntry .defect 3 .one, plainEntry .release 9 .one] }
    let own : TrayRec := { TrayRec.fresh with cond := .own, plan := some { lane := .l0, tag := 4 } }
    ((plainEntry .defect 3 .one).kind.isClaim = false ∧ v.table.station = .leaving ∧
        v.line.enabled = true ∧ [plainEntry .release 9 .one] ≠ []) ∧
      (g.slotOf? .l0 4 = none ∧ g.table.station ≠ .leaving ∧
        { claimEntry .waiting with ended := true }.kind.isClaim = true) ∧
      (s.slotOf? .l0 4 = some .s0 ∧ s.plan .l0 .s0 = some (planFor .tentative 900) ∧
        s.plan .l0 .s1 = none ∧ (plainEntry .release 9 .one).plan = none ∧
        s.namedTrays 3 .one = [3] ∧ s.tray? 3 = some own ∧ (claimEntry .waiting).ended = false ∧
        s.mayPlan = false ∧ s.table.station ≠ .leaving ∧ s.line.enabled = true) := by
  decide +kernel

/-- With room at the last free record, without room, and one count short of the minimum gap, the parcel before
still QUEUED and gone from the list. -/
theorem witness_EntryEdgeCreatesRecordOrBlocks :
    let five := [0, 1, 2, 3, 4].map fun t => { parcelAt .queued with tag := t }
    let s (ps : List Parcel) (gap : Option Tag) := rested (station5
      ⟨{ laneIn .running ps with gapTest := gap, gapCount := 49 }, .reset⟩)
    (∀ g ∈ [none, some 4, some 8], ∀ n ∈ [5, 6],
      let t := s (five ++ if n = 6 then [{ parcelAt .queued with tag := 5 }] else []) g
      t.pins.rstLow = false ∧ t.atRest = true ∧ t.pins.entryEye.get .l0 = false ∧
        t.takesEntry .l0 = true ∧ t.touches .l0 = g.isSome ∧ t.hasRoom .l0 = (n == 5) ∧
        (g = some 4 → ((t.lane .l0).parcel? 4).map Parcel.place = some .queued) ∧
        (g = some 8 → (t.lane .l0).parcel? 8 = none)) ∧
      quiet.atRest = true ∧ quiet.takesEntry .l0 = false := by decide +kernel

/-- The measurement count on both sides of each limit, 100 and the two-tray limit of 800; with and without a
scan in the record, in the slot and in the QUEUED record before it. -/
theorem witness_MeasurementEndsByLengthOrLimit :
    let sc : Scan := { id := 7, chute := 17, noRead := false, multiRead := false }
    let s (st : LaneState) (n : Nat) := rested (station5
      ⟨{ laneIn st [Parcel.fresh 4] with measure := n }, .reset⟩)
    (∀ st ∈ [LaneState.running, .paused, .blocked], ∀ n ∈ [99, 100, 800, 801],
      (s st n).pins.rstLow = false ∧ (s st n).atRest = true ∧
        ((s st n).lane .l0).measuring? = some (Parcel.fresh 4) ∧
        ((s st n).lane .l0).measure = n ∧ (s st n).cfgDouble .l0 = 800 ∧
        ((s st n).lane .l0).state = st) ∧
      (∀ n ∈ [99, 100], ∀ got ∈ [none, some sc], ∀ early ∈ [none, some sc],
        ∀ before ∈ [some sc, none],
        let q := { parcelAt .ready with tag := 2 }
        let c := { parcelAt .queued with tag := 3, scan := before }
        let t := rested (station5 ⟨{ laneIn .running [q, c, { Parcel.fresh 4 with scan := got }] with
          measure := n, early := early }, .reset⟩)
        t.atRest = true ∧ (t.lane .l0).measure = n ∧ (t.lane .l0).early = early ∧
          (t.lane .l0).measuring? = some { Parcel.fresh 4 with scan := got } ∧
          q.isCandidate = false ∧ c.isCandidate = before.isNone) ∧
      (quiet.lane .l0).measuring? = none ∧ quiet.atRest = true := by decide +kernel

theorem witness_LaneCountersMoveAlone :
    let s (c : LaneCtl) := station5 ⟨c, .reset⟩
    let m := s { laneIn .running [Parcel.fresh 4] with measure := 2998 }
    let g := s { laneIn .running [] with gapTest := some 3, gapCount := 49 }
    let e : Launch := { tray := 3, span := .one, double := false, mergeSeen := false,
                        aborted := false, timer := 0 }
    let k := s { laneIn .running [] with launch := some e }
    (m.entryBeltRuns .l0 = true ∧ (m.lane .l0).measuring?.isSome = true ∧
        (m.lane .l0).gapTest = none ∧ (m.lane .l0).measure + 1 < 3000) ∧
      (g.entryBeltRuns .l0 = true ∧ (g.lane .l0).measuring? = none ∧
        (g.lane .l0).gapTest.isSome = true) ∧
      quiet.entryBeltRuns .l0 = false ∧ (k.lane .l0).launch = some e ∧ e.aborted = false := by
  decide +kernel

theorem witness_HoldAndLaunchEyesMoveParcels :
    let s := rested (station5 (oneLane [parcelAt .queued]))
    let t := station5 ⟨{ laneIn .running [parcelAt .transferring] with transfer := some 19 }, .reset⟩
    (s.pins.rstLow = false ∧ s.atRest = true ∧ (s.lane .l0).feed = true ∧
        (s.lane .l0).at? .queued = some (parcelAt .queued)) ∧
      (t.pins.rstLow = false ∧ (t.lane .l0).transfer = some 19 ∧
        (t.lane .l0).at? .transferring = some (parcelAt .transferring)) ∧
      (quiet.lane .l0).feed = false ∧ (quiet.lane .l0).transfer = none := by
  decide +kernel

theorem witness_TimeoutsFaultTheLane :
    let e : Launch := { tray := 3, span := .one, double := false, mergeSeen := false,
                        aborted := false, timer := 19 }
    let s := station5 ⟨{ laneIn .running [parcelAt .launching] with
      transfer := some 19, launch := some e }, .reset⟩
    s.pins.rstLow = false ∧ s.table.station ≠ .leaving ∧ (s.lane .l0).transfer.isSome = true ∧
      (s.lane .l0).launchRuns = true ∧
      { s with loop := { s.loop with vs := 49 } }.mayPlan = false := by decide +kernel

/-- A launch with its plan, ONLINE and LEAVING, the queue with its last entry free; a launch without one,
ONLINE, LEAVING with a frame queued, and LEAVING with nothing queued. -/
theorem witness_MergeCompletionInductsParcel :
    let e : Launch := { tray := 3, span := .one, double := false, mergeSeen := true,
                        aborted := false, timer := 19 }
    let r (sl : Option Slot) := { parcelAt .launching with planSlot := sl, dest := some ⟨17, false⟩ }
    let s (st : Station) (sl : Option Slot) (n : Nat) :=
      let s0 := planned .launched .launching
      { s0 with
        lanes := ⟨{ laneIn .running [r sl] with launch := some e }, .reset⟩
        txq := List.replicate n (plainEntry .release 9 .one)
        table := { s0.table with station := st }
        plans := if sl.isSome then s0.plans else .all none }
    (∀ st ∈ [Station.online, .leaving], ∀ sl ∈ [some .s0, none], ∀ n ∈ [0, 1, 7],
      (s st sl n).pins.rstLow = false ∧ (s st sl n).mapInUse = true ∧
        (s st sl n).line.enabled = true ∧ ((s st sl n).lane .l0).launch = some e ∧
        ((s st sl n).lane .l0).at? .launching = some (r sl) ∧ (s st sl n).offered .l0 = [] ∧
        (s st sl n).offered .l1 = [] ∧ (s st sl n).txq.length = n ∧
        (s st sl n).hasTwin (plainEntry (.loaded (r sl).chute e.double) e.tray e.span) = false ∧
        (sl = some .s0 → (s st sl n).plan .l0 .s0 = some (planFor .launched 900)) ∧
        ((s st sl n).lane (otherLane .l0)).launchRuns = false) ∧
      e.mergeSeen = true ∧ e.aborted = false := by decide +kernel

theorem witness_ButtonPressActsByLaneState :
    let s (st : LaneState) (n : Nat) := station5 ⟨{ laneIn st [] with buttonFilter := n }, .reset⟩
    (∀ st ∈ [LaneState.stopped, .running, .paused, .blocked, .fault], ∀ n ∈ [19, 20],
      (s st n).pins.rstLow = false ∧ ((s st n).lane .l0).state = st ∧
        ((s st n).lane .l0).buttonFilter = n) ∧
      (s .blocked 20).pins.entryEye.get .l0 = false := by decide +kernel

theorem witness_PortPeriodsAndSlotsMoveBytes :
    let s (sel : Select) (n : Nat) (reports : List Byte) := { quiet with
      port := { quiet.port with select := sel, inbound := List.replicate n 0 }
      rep := { quiet.rep with fifo := reports } }
    (quiet.pins.rstLow = false ∧ quiet.pins.scsLow = false ∧ quiet.port.select ≠ .awaiting ∧
        (s .awaiting 0 []).port.select = .awaiting ∧ (0xA3 : Byte) ≠ 0xA0 ∧ (0xA3 : Byte) ≠ 0xA1 ∧
        (0xA3 : Byte) ≠ 0xA2 ∧ bitAt (quiet.cw 47) 1 = true ∧
        (after (exec .selectPeriodStart quiet)).pins.scsLow = true) ∧
      ((s .put 63 []).port.inbound.length < 64 ∧ 64 ≤ (s .put 64 []).port.inbound.length) ∧
      ((s .take 0 [5]).port.select = .take ∧ (s .take 0 [5]).rep.fifo = 5 :: [] ∧
        (s .take 0 [5]).table.station ≠ .applying ∧ (s .take 0 [5]).port.commandError = false ∧
        (s .take 0 [5]).rep.lost = false) ∧
      (s .take 0 []).rep.fifo = [] ∧ (s .status 48 []).port.select = .status := by decide +kernel

theorem witness_BusyStationDiscardsMessages :
    messageOf (.scan 0 5 17 0) = some (.scan 0 5 17 0) ∧
      (quietIn .applying).table.station = .applying ∧ Message.scan 0 5 17 0 ≠ .reset ∧
      (quietIn .applying).pins.rstLow = false := by decide +kernel

theorem witness_LaneMessagesMoveLaneStateOrAreRefused :
    let s (st : LaneState) := station5 (.all (laneIn st []))
    (∀ st ∈ [LaneState.stopped, .running, .paused, .blocked, .fault],
      ((s st).lane .l1).state = st ∧ (s st).pins.rstLow = false ∧ (s st).table.station = .online) ∧
      laneOfByte 1 = some .l1 ∧ laneOfByte 2 = none ∧
      (quietIn .configured).table.station ≠ .online ∧
      (quietIn .configured).table.station ≠ .applying ∧ bitAt (quiet.cw 47) 1 = true := by
  decide +kernel

/-- A lane running with a plan, one STOPPED already, a station LEAVING with a launch, and a lane with a launch
that runs and an unlaunched plan behind it, the queue and the report FIFO with their last room. -/
theorem witness_StopEmptiesLaneButFinishingLaunch :
    let p := planned .claimed .ready
    let s := { p with
      loop := { p.loop with vs := 49 }
      txq := List.replicate 6 (plainEntry .release 9 .one)
      rep := { p.rep with fifo := List.replicate 124 0 } }
    let v := { planned .launched .launching with
      table := { quiet.table with station := .leaving } }
    let e : Launch := { tray := 3, span := .one, double := false, mergeSeen := false,
                        aborted := false, timer := 0 }
    let r := { parcelAt .launching with planSlot := some .s0 }
    let q := { parcelAt .ready with tag := 5, planSlot := some .s1 }
    let w := { planned .launched .launching with
      lanes := ⟨{ laneIn .running [r, q] with launch := some e }, .reset⟩
      txq := List.replicate 6 (plainEntry .release 9 .one)
      plans := { Four.all none with
        l0s0 := some (planFor .launched 900)
        l0s1 := some { planFor .claimed 1300 with tag := 5, target := 6 } } }
    (s.pins.rstLow = false ∧ s.table.station ≠ .applying ∧ s.table.station ≠ .leaving ∧
        laneOfByte 0 = some .l0 ∧ (s.lane .l0).launchRuns = false ∧ (s.lane .l0).state ≠ .stopped ∧
        s.mayPlan = false ∧ s.txq.length + 2 ≤ 8 ∧ s.rep.fifo.length + 4 ≤ 128) ∧
      (v.table.station = .leaving ∧ v.plan .l0 .s0 = some (planFor .launched 900) ∧
        v.plan .l0 .s1 = none ∧ v.plan .l1 .s0 = none ∧ v.plan .l1 .s1 = none) ∧
      laneOfByte 1 = some .l1 ∧ (s.lane .l1).state = .stopped ∧
      (w.table.station = .online ∧ w.txq.length + 2 ≤ 8 ∧ (w.lane .l0).launchRuns = true ∧
        (w.lane .l0).parcels = [r, q] ∧ r.place = .launching ∧
        w.plan .l0 .s0 = some (planFor .launched 900) ∧
        (w.plan .l0 .s1).map Plan.state = some .claimed ∧
        (w.lane .l0).rank r.tag < (w.lane .l0).rank q.tag) := by decide +kernel

theorem witness_ScanIsPlacedOnce :
    let s (ps : List Parcel) := station5 (oneLane ps)
    let old := { parcelAt .holding with tag := 3 }
    laneOfByte 0 = some .l0 ∧ (quiet.lane .l0).state = .stopped ∧
      (((s [old]).lane .l0).early = none ∧ ∀ r ∈ ((s [old]).lane .l0).parcels, r.isCandidate = false) ∧
      ((s [old, parcelAt .queued]).lane .l0).parcels = [old] ++ parcelAt .queued :: [] ∧
      (parcelAt .queued).isCandidate = true ∧ old.isCandidate = false ∧
      old.tag ≠ (parcelAt .queued).tag := by decide +kernel

theorem witness_ConfigurationMessagesWriteAndApply :
    let s := { quiet with table := { quiet.table with pointer := 47 } }
    (s.pins.rstLow = false ∧ s.table.station ≠ .applying ∧ s.table.pointer < 48 ∧
        (47 : Byte).toNat < 48 ∧ 48 ≤ (48 : Byte).toNat) ∧
      State.reset.pins.rstLow = false ∧ State.reset.table.station = .unconfigured ∧
      (quietIn .configured).table.station = .configured ∧ quiet.table.station = .online ∧
      (quietIn .leaving).table.station = .leaving := by decide +kernel

theorem witness_ApplyCompletesByValidation :
    let a (w : Words) : Applying := { copy := w, fromConfigured := true, timer := 1 }
    let s (w : Words) := { quietIn .applying with
      table := { quiet.table with station := .applying, applying := some (a w) } }
    (s words5).pins.rstLow = false ∧ (s words5).table.station = .applying ∧
      (s words5).table.applying = some (a words5) ∧ validate words5 = .ok ∧
      validate (words5.set 2 15) = .outOfRange 2 ∧ validate (words5.set 2 16) = .ok ∧
      (s words5).loop.lock ≠ .unlocked ∧ (s words5).plans = .all none ∧
      State.reset.loop.lock = .unlocked := by decide +kernel

theorem witness_JoinPutsStationOnLine :
    (quietIn .configured).pins.rstLow = false ∧ (quietIn .configured).table.station = .configured ∧
      (quietIn .leaving).table.station ≠ .configured ∧
      (quietIn .leaving).table.station ≠ .applying := by decide +kernel

theorem witness_LeaveStopsIntakeAndPlanning :
    let e : Launch := { tray := 3, span := .one, double := false, mergeSeen := false,
                        aborted := false, timer := 0 }
    let s := station5 ⟨{ laneIn .running [parcelAt .launching] with launch := some e }, .reset⟩
    let m := station5 (oneLane [{ parcelAt .queued with tag := 3 }, Parcel.fresh 4])
    quiet.table.station = .online ∧ s.lanes.l0.launchRuns = true ∧
      (m.lane .l0).measuring? = some (Parcel.fresh 4) ∧
      (quietIn .configured).table.station ≠ .online ∧
      (quietIn .configured).table.station ≠ .applying ∧ quiet.pins.rstLow = false := by decide +kernel

theorem witness_LeavingEndsWhenLaunchesAndQueueAreDone :
    let s := quietIn .leaving
    let q := rested { s with txq := [plainEntry .release 3 .one] }
    s.pins.rstLow = false ∧ s.table.station = .leaving ∧ s.lanes.l0.launchRuns = false ∧
      s.lanes.l1.launchRuns = false ∧ s.txq = [] ∧ s.lanes.l0.state = .stopped ∧
      s.lanes.l1.state = .stopped ∧ q.txq ≠ [] ∧ q.table.station = .leaving ∧
      q.atRest = true := by decide +kernel

theorem witness_ReadTrayReportsRecord :
    (15 : BitVec 16).toNat < quiet.cfgT ∧ quiet.table.station ≠ .applying ∧
      quiet.tray? (15 : BitVec 16).toNat = some { TrayRec.fresh with cond := .opened } ∧
      quiet.cfgT ≤ (16 : BitVec 16).toNat ∧ State.reset.cfgT ≤ (0 : BitVec 16).toNat ∧
      quiet.pins.rstLow = false := by decide +kernel

theorem witness_ClearDefectClearsMark :
    let s := withTrays quiet .defective none
    s.pins.rstLow = false ∧ s.table.station ≠ .applying ∧ s.mapInUse = true ∧
      (3 : BitVec 16).toNat < s.cfgT ∧
      s.tray? (3 : BitVec 16).toNat = some { TrayRec.fresh with cond := .defective } ∧
      quiet.tray? (15 : BitVec 16).toNat = some { TrayRec.fresh with cond := .opened } ∧
      s.cfgT ≤ (16 : BitVec 16).toNat ∧
      { s with trays := [TrayRec.fresh] }.tray? 0 = some TrayRec.fresh := by decide +kernel

theorem witness_IdentifyAndClearFlags :
    quiet.pins.rstLow = false ∧ quiet.table.station ≠ .applying ∧
      (quietIn .applying).table.station = .applying ∧ quiet.rep.fifo = [] := by decide +kernel

end Sys2Proof.Tests
end

section
/-! SUPPORT and PROOFS of the family of 02_the_tray_map.md: what a message does when it is taken, the rules
of the record operations CLEAR_DEFECT and the zone exit use, and the theorems that settle O17, O58 and O59. -/

namespace Sys2Proof.Machine

/-! ### Messages that are taken or refused -/

/-- R151, R166: an event outside a reset on the line is taken. -/
theorem State.unlessHeld_of_rstHigh {s : State} (h : s.pins.rstLow = false) (event : State → State) :
    s.unlessHeld event = .next (event s) := by
  simp [State.unlessHeld, h]

/-- R149: outside APPLYING every message is acted on. -/
theorem State.takeMessage_of_not_applying {s : State} (h : s.table.station ≠ .applying) (m : Message) :
    s.takeMessage m = s.act m := by
  simp [State.takeMessage, State.busy, h]

/-- A refused message sets COMMAND_ERROR and moves nothing else but the output lines. -/
theorem State.refuseMessage_eq (s : State) :
    s.refuseMessage =
      { s with port := { s.port with commandError := true }, outs := s.setCommandError.outputs } := rfl

/-- R149, R151: a message command outside a reset on the line and outside APPLYING acts. -/
theorem State.unlessHeld_takeMessage {s : State} (h : s.pins.rstLow = false)
    (hst : s.table.station ≠ .applying) (m : Message) :
    s.unlessHeld (fun s => s.takeMessage m) = .next (s.act m) := by
  rw [State.unlessHeld_of_rstHigh h, State.takeMessage_of_not_applying hst]

theorem exec_readTray_of_taken {s : State} (h : s.pins.rstLow = false)
    (hst : s.table.station ≠ .applying) (k : BitVec 16) :
    exec (.readTray k) s = .next (s.actReadTray k) :=
  State.unlessHeld_takeMessage h hst (.readTray k)

theorem exec_clearDefect_of_taken {s : State} (h : s.pins.rstLow = false)
    (hst : s.table.station ≠ .applying) (k : BitVec 16) :
    exec (.clearDefect k) s = .next (s.actClearDefect k) :=
  State.unlessHeld_takeMessage h hst (.clearDefect k)

/-! ### READ_TRAY (R45) -/

/-- The TRAY report holds one report code, two bytes of tray, condition, seen, holder and two of partner. -/
theorem Report.tray_bytes_length (k : Nat) (r : TrayRec) : (Report.tray k r).bytes.length = 8 := by
  cases hp : r.partner <;> simp [Report.bytes, twoBytes, hp]

theorem State.actReadTray_of_lt {s : State} {k : BitVec 16} {r : TrayRec} (hk : k.toNat < s.cfgT)
    (hr : s.tray? k.toNat = some r) :
    s.actReadTray k = (s.queueReport (.tray k.toNat r)).drive := by
  simp [State.actReadTray, hk, hr]

theorem State.actReadTray_of_le {s : State} {k : BitVec 16} (hk : s.cfgT ≤ k.toNat) :
    s.actReadTray k = s.refuseMessage := by
  simp [State.actReadTray, hk]

/-- R152: a queued report and the output lines driven after it move the report FIFO and the lines alone. -/
theorem State.queueReport_drive_eq (s : State) (r : Report) :
    (s.queueReport r).drive =
      { s with rep := (s.queueReport r).rep, outs := (s.queueReport r).outputs } := rfl

/-- Settles O58: a tray below T takes the report branch of READ_TRAY, any other the refusal. -/
theorem readTrayReportsRecord : Obligations.ReadTrayReportsRecord := by
  intro s k hrst hst
  rw [exec_readTray_of_taken hrst hst]
  constructor
  · intro r hk hr
    refine ⟨(s.queueReport (.tray k.toNat r)).outputs, ?_⟩
    rw [State.actReadTray_of_lt hk hr, State.queueReport_drive_eq, State.queueReport_rep,
      Report.tray_bytes_length]
    cases hh : r.holder <;> cases hp : r.partner <;>
      simp [Report.bytes, twoBytes, hh, hp, Config.reportCapacity]
  · intro hk
    rw [State.actReadTray_of_le hk]
    exact ⟨_, congrArg _ s.refuseMessage_eq⟩

/-! ### Sectors (R38, R39) -/

theorem bitAt_eq_true_iff (mask i : Nat) : bitAt mask i = true ↔ mask / 2 ^ i % 2 = 1 := by
  simp [bitAt]

theorem bitAt_eq_false_iff (mask i : Nat) : bitAt mask i = false ↔ mask / 2 ^ i % 2 = 0 := by
  rw [← Bool.not_eq_true, bitAt_eq_true_iff, Nat.mod_two_not_eq_one]

/-- R38: the allow bit of the tray's sector is set, and its yield bit is clear where YIELD is asserted. -/
theorem State.sectorAllowed_iff (s : State) (k : Nat) :
    s.sectorAllowed k = true ↔
      s.cfgAllow / 2 ^ s.sectorOf k % 2 = 1 ∧
        (s.pins.yieldIn = true → s.cfgYield / 2 ^ s.sectorOf k % 2 = 0) := by
  rw [← bitAt_eq_true_iff, ← bitAt_eq_false_iff]
  cases hy : s.pins.yieldIn <;> simp [State.sectorAllowed, hy]

/-- Settles O17: YIELD_CHANGE writes its level, and the masks and T it leaves are those R38 reads. -/
theorem yieldLevelGovernsSectors : Obligations.YieldLevelGovernsSectors :=
  fun s asserted => ⟨rfl, fun k =>
    State.sectorAllowed_iff { s with pins := { s.pins with yieldIn := asserted } } k⟩

/-! ### Changed records (R18, R22, R37) -/

/-- The record of tray `j` after that of tray `k` has been changed. -/
theorem State.modTray_trayRec (s : State) (k : Nat) (f : TrayRec → TrayRec) (j : Nat) :
    (s.modTray k f).tray? j = if k = j then (s.tray? j).map f else s.tray? j := by
  simp only [State.tray?, State.modTray_trays, List.getElem?_modify]
  split <;> simp

/-- A new condition moves the records alone. -/
theorem State.recond_eq (s : State) (k : Nat) (c : Cond) (seen : Seen) (holder : Option Nat) :
    s.recond k c seen holder = { s with trays := (s.recond k c seen holder).trays } := by
  unfold State.recond
  split
  · rfl
  · dsimp only
    split <;> rfl

/-- R18: the record given another condition has no partner and no plan reference. -/
theorem State.recond_trayRec_self {s : State} {k : Nat} {r : TrayRec} (h : s.tray? k = some r)
    (c : Cond) (seen : Seen) (holder : Option Nat) :
    (s.recond k c seen holder).tray? k =
      some { cond := c, seen := seen, holder := holder, partner := none, plan := none } := by
  cases hp : r.partner <;> simp [State.recond, h, hp, State.modTray_trayRec]
  split <;> simp

/-- R18: beside the record itself only that of its partner may change. -/
theorem State.recond_trayRec_other {s : State} {k j : Nat} {r : TrayRec} (h : s.tray? k = some r)
    (hj : j ≠ k) (hp : r.partner ≠ some j) (c : Cond) (seen : Seen) (holder : Option Nat) :
    (s.recond k c seen holder).tray? j = s.tray? j := by
  cases hq : r.partner with
  | none => simp [State.recond, h, hq, State.modTray_trayRec, hj.symm]
  | some i =>
    have hi : i ≠ j := fun e => hp (e ▸ hq)
    simp [State.recond, h, hq, State.modTray_trayRec, hj.symm, hi]

theorem State.clearRecord_of_defective {s : State} {k : Nat} {r : TrayRec} (h : s.tray? k = some r)
    (hc : r.cond = .defective) : s.clearRecord k = s.recond k .learning .none none := by
  simp [State.clearRecord, h, hc]

theorem State.clearRecord_of_not_defective {s : State} {k : Nat} {r : TrayRec}
    (h : s.tray? k = some r) (hc : r.cond ≠ .defective) : s.clearRecord k = s := by
  simp [State.clearRecord, h, hc]

/-- R22: the zone exit of a record neither DEFECTIVE nor OWN makes it OPEN. -/
theorem State.zoneExitRecord_of_learning {s : State} {k : Nat} {r : TrayRec} (h : s.tray? k = some r)
    (hc : r.cond = .learning) : s.zoneExitRecord k = s.recond k .opened .none none := by
  simp [State.zoneExitRecord, h, hc]

/-! ### CLEAR_DEFECT (R37) -/

theorem State.actClearDefect_of_lt {s : State} {k : BitVec 16} (hk : k.toNat < s.cfgT) :
    s.actClearDefect k = if s.mapInUse then s.clearRecord k.toNat else s := by
  simp [State.actClearDefect, hk]

theorem State.actClearDefect_of_le {s : State} {k : BitVec 16} (hk : s.cfgT ≤ k.toNat) :
    s.actClearDefect k = s.refuseMessage := by
  simp [State.actClearDefect, hk]

/-- R37: CLEAR_DEFECT of a DEFECTIVE record of a map in use makes the record as after reset, and leaves all
but the records, and of these all but the one it names and its partner's. -/
theorem State.actClearDefect_of_defective {s : State} {k : BitVec 16} {r : TrayRec}
    (hk : k.toNat < s.cfgT) (hm : s.mapInUse = true) (hr : s.tray? k.toNat = some r)
    (hc : r.cond = .defective) :
    ∃ trays, s.actClearDefect k = { s with trays := trays } ∧
      trays[k.toNat]? = some TrayRec.fresh ∧
      ∀ j, j ≠ k.toNat → r.partner ≠ some j → trays[j]? = s.trays[j]? := by
  have he : s.actClearDefect k = s.recond k.toNat .learning .none none := by
    rw [State.actClearDefect_of_lt hk, if_pos hm, State.clearRecord_of_defective hr hc]
  exact ⟨_, he.trans (s.recond_eq ..), State.recond_trayRec_self hr .., fun j hj hp =>
    State.recond_trayRec_other hr hj hp ..⟩

/-- R37: CLEAR_DEFECT of any other record, or of a map unused, changes nothing. -/
theorem State.actClearDefect_eq_self {s : State} {k : BitVec 16} {r : TrayRec}
    (hk : k.toNat < s.cfgT) (hr : s.tray? k.toNat = some r)
    (h : s.mapInUse = false ∨ r.cond ≠ .defective) : s.actClearDefect k = s := by
  rw [State.actClearDefect_of_lt hk]
  cases h with
  | inl hm => simp [hm]
  | inr hc => rw [State.clearRecord_of_not_defective hr hc, ite_self]

/-- Settles O59: the three outcomes of CLEAR_DEFECT, then the zone exit of the record it leaves. -/
theorem clearDefectClearsMark : Obligations.ClearDefectClearsMark := by
  refine ⟨fun s k hrst hst => ?_, fun s k hr => ?_⟩
  · rw [exec_clearDefect_of_taken hrst hst]
    refine ⟨fun r hk hr => ⟨fun hm hc => ?_, fun h => ?_⟩, fun hk => ?_⟩
    · obtain ⟨trays, he, hself, hother⟩ := State.actClearDefect_of_defective hk hm hr hc
      exact ⟨trays, congrArg _ he, hself, hother⟩
    · rw [State.actClearDefect_eq_self hk hr h]
    · rw [State.actClearDefect_of_le hk]
      exact ⟨_, congrArg _ s.refuseMessage_eq⟩
  · rw [State.zoneExitRecord_of_learning hr rfl, State.recond_trayRec_self hr]
    rfl

end Sys2Proof.Machine
end

section
/-! SUPPORT and PROOFS of the family of 09_the_local_port.md: what IDENTIFY and CLEAR_FLAGS do when they are
taken, what a message does while the station is APPLYING, and the theorem that settles O60. -/

namespace Sys2Proof.Machine

/-- R149: while APPLYING every message but RESET is refused. -/
theorem State.takeMessage_of_applying {s : State} (h : s.table.station = .applying) {m : Message}
    (hm : m ≠ .reset) : s.takeMessage m = s.refuseMessage := by
  simp [State.takeMessage, State.busy, h, hm]

/-- R149, R151: a message command but RESET, outside a reset on the line and while APPLYING, is refused. -/
theorem State.unlessHeld_takeMessage_of_applying {s : State} (h : s.pins.rstLow = false)
    (hst : s.table.station = .applying) {m : Message} (hm : m ≠ .reset) :
    s.unlessHeld (fun s => s.takeMessage m) = .next s.refuseMessage := by
  rw [State.unlessHeld_of_rstHigh h, State.takeMessage_of_applying hst hm]

theorem exec_identify_of_taken {s : State} (h : s.pins.rstLow = false)
    (hst : s.table.station ≠ .applying) : exec .identify s = .next s.actIdentify :=
  State.unlessHeld_takeMessage h hst .identify

theorem exec_clearFlags_of_taken {s : State} (h : s.pins.rstLow = false)
    (hst : s.table.station ≠ .applying) : exec .clearFlags s = .next s.actClearFlags :=
  State.unlessHeld_takeMessage h hst .clearFlags

theorem exec_identify_of_applying {s : State} (h : s.pins.rstLow = false)
    (hst : s.table.station = .applying) : exec .identify s = .next s.refuseMessage :=
  State.unlessHeld_takeMessage_of_applying (m := .identify) h hst (by decide)

theorem exec_clearFlags_of_applying {s : State} (h : s.pins.rstLow = false)
    (hst : s.table.station = .applying) : exec .clearFlags s = .next s.refuseMessage :=
  State.unlessHeld_takeMessage_of_applying (m := .clearFlags) h hst (by decide)

/-- R150, R152: IDENTIFY moves the report FIFO or REPORT_LOST, and the output lines, alone. -/
theorem State.actIdentify_eq (s : State) :
    s.actIdentify =
      { s with
        rep := if s.rep.fifo.length + 4 ≤ 128 then
            { s.rep with fifo := s.rep.fifo ++ [0x8C, 0x2D, 1, 0] }
          else { s.rep with lost := true }
        outs := (s.queueReport .id).outputs } := by
  rw [State.actIdentify, State.queueReport_drive_eq, State.queueReport_rep]
  rfl

/-- R150: CLEAR_FLAGS clears COMMAND_ERROR and REPORT_LOST and moves nothing else but the output lines. -/
theorem State.actClearFlags_eq (s : State) :
    s.actClearFlags =
      { s with
        port := { s.port with commandError := false }
        rep := { s.rep with lost := false }
        outs := s.actClearFlags.outs } := rfl

/-- R155: with the two sticky flags cleared REPORT alone can drive ATTN low. -/
theorem State.actClearFlags_attnLow (s : State) :
    s.actClearFlags.outs.attnLow = (s.reportFlag && bitAt (s.cw 47) 0) := by
  have h : s.actClearFlags.outs.attnLow =
      ((s.reportFlag && bitAt (s.cw 47) 0) || (false && bitAt (s.cw 47) 1) ||
        (false && bitAt (s.cw 47) 2)) := rfl
  simpa using h

/-- Settles O60: outside APPLYING each of the two messages acts, while APPLYING both are refused. -/
theorem identifyAndClearFlags : Obligations.IdentifyAndClearFlags := by
  refine fun s hrst => ⟨fun hst => ?_, fun hst => ?_, fun hst c hc => ?_⟩
  · rw [exec_identify_of_taken hrst hst]
    exact ⟨_, congrArg _ s.actIdentify_eq⟩
  · rw [exec_clearFlags_of_taken hrst hst]
    refine ⟨_, congrArg _ s.actClearFlags_eq, fun hfifo => ?_⟩
    simp [State.actClearFlags_attnLow, State.reportFlag, hfifo]
  · refine ⟨_, Eq.trans ?_ (congrArg _ s.refuseMessage_eq)⟩
    obtain rfl | rfl := hc
    · exact exec_identify_of_applying hrst hst
    · exact exec_clearFlags_of_applying hrst hst

end Sys2Proof.Machine
end


section
/-! SUPPORT. What a step can do, said once: `Move` lists the changes an event is made of, with what each keeps,
and `exec_moves` says that every command makes a sequence of them. The invariants of O5 to O8 are read off from it. -/

namespace Sys2Proof.Machine

/-! ### The changes an event is made of -/

/-- The Line Interface's buffer and counts within their bounds (R47, R49, R60, R61). -/
structure LineIf.Bounded (c : LineIf) : Prop where
  rxBuf : c.rxBuf.length ≤ 9
  attempt : c.attempt ≤ 15
  backoff : c.backoff ≤ 984
  idleRun : c.idleRun ≤ 24
  holdCount : c.holdCount ≤ 1000

/-- The counts of the speed window within their bounds (1.1, R13, R14). -/
structure LoopTracker.Bounded (c : LoopTracker) : Prop where
  vs : c.vs ≤ 600
  windowLow : -65535 ≤ c.windowCount
  windowHigh : c.windowCount ≤ 65535
  windowTimer : c.windowTimer ≤ 99
  standstill : c.standstill ≤ 3

/-- The counts of a lane within their bounds under a minimum gap (R87, R88, R101). -/
structure LaneCtl.Bounded (minGap : Nat) (c : LaneCtl) : Prop where
  measure : c.measure ≤ 3000
  gapCount : c.gapCount ≤ 3000
  gapTest : c.gapTest = none ∨ c.gapCount < minGap
  buttonFilter : c.buttonFilter ≤ 20

/-- The counts of a lane's pace within their bounds (8.1, R140). -/
structure PaceLane.Bounded (p : PaceLane) : Prop where
  index : p.index ≤ 15
  hyst : p.hyst ≤ 4

/-- What a change of the Line Interface keeps: it is ENABLED or not as before, and its buffer and counts stay
within their bounds. `number` is the station number (R60). -/
structure LineMove (number : Nat) (c d : LineIf) : Prop where
  enabled : d.enabled = c.enabled
  bounded : number ≤ 31 → c.Bounded → d.Bounded

/-- What a change of one lane keeps: a record joins only where there is room (R85), and the counts stay within
their bounds. -/
structure LaneMove (s : State) (l : Lane) (d : LaneCtl) : Prop where
  parcels : d.parcels.length ≤ (s.lane l).parcels.length ∨
    (s.hasRoom l = true ∧ d.parcels.length = (s.lane l).parcels.length + 1)
  bounded : s.cfgMinGap l ≤ 3000 → (s.lane l).Bounded (s.cfgMinGap l) → d.Bounded (s.cfgMinGap l)

/-- What a change of the paces keeps: index and hysteresis count stay within their bounds (R139, R140). -/
def PaceMove (s : State) (q : Pace) : Prop :=
  ∀ l, s.cfgMinEntry l ≤ 15 → (s.pace.lanes.get l).Bounded → (q.lanes.get l).Bounded

/-- Two states of the Loop Tracker with the same lock and the same counts of positions. -/
structure SamePositions (c d : LoopTracker) : Prop where
  lock : d.lock = c.lock
  S : d.S = c.S
  backlog : d.backlog = c.backlog
  frontier : d.frontier = c.frontier
  travel : d.travel = c.travel
  missing : d.missing = c.missing

/-- One change of an event. `counts` says whether the lock and the counts of positions may move, `lanes` whether
a lane cleared may take something up off the line. -/
inductive Move (counts lanes : Prop) : State → State → Prop
  | plan {s t : State} : PlanWork s t → Move counts lanes s t
  | pins (s : State) (f : Pins → Pins) : Move counts lanes s (s.modPins f)
  | outs (s : State) (o : Outs) : Move counts lanes s (s.setOuts o)
  | clock (s : State) (n : Tick) (q : List Instr) : Move counts lanes s { s with tick := n, pending := q }
  | port {s : State} {f : LocalPort → LocalPort} :
      (s.port.inbound.length ≤ 64 → (f s.port).inbound.length ≤ 64) → Move counts lanes s (s.modPort f)
  | rep {s : State} {f : ReportPort → ReportPort} :
      (f s.rep).fifo.length ≤ s.rep.fifo.length → Move counts lanes s (s.modRep f)
  | line {s : State} {f : LineIf → LineIf} :
      LineMove s.stationNumber s.line (f s.line) → Move counts lanes s (s.modLine f)
  | queue {s : State} {q : List TxEntry} : q.length ≤ s.txq.length → Move counts lanes s (s.setTxq q)
  | pace {s : State} {f : Pace → Pace} : PaceMove s (f s.pace) → Move counts lanes s (s.modPace f)
  | lane {s : State} {l : Lane} {f : LaneCtl → LaneCtl} :
      LaneMove s l (f (s.lane l)) →
      (lanes ∨ s.mapInUse = true ∨ ((s.lane l).cleared = true → (f (s.lane l)).cleared = true)) →
      Move counts lanes s (s.modLane l f)
  | doubt {s : State} {d : Nat} : d ≤ s.doubt ∨ d ≤ s.loopLength → Move counts lanes s (s.setDoubt d)
  | entries (s : State) : Move counts lanes s ((s.setTrig (.all none)).setAims (.all none))
  | window {s : State} {f : LoopTracker → LoopTracker} :
      (s.loop.Bounded → (f s.loop).Bounded) → SamePositions s.loop (f s.loop) → Move counts lanes s (s.modLoop f)
  | loop {s : State} {f : LoopTracker → LoopTracker} :
      counts → (s.loop.Bounded → (f s.loop).Bounded) → Move counts lanes s (s.modLoop f)
  | words {s : State} {w : Words} {n : Nat} : (s.table.pointer ≤ 47 → n ≤ 47) →
      Move counts lanes s (s.modTable fun t => { t with working := w, pointer := n })
  | applyTimer (s : State) (n : Nat → Nat) :
      Move counts lanes s (s.modTable fun t =>
        { t with applying := t.applying.map fun a => { a with timer := n a.timer } })
  | beginApply {s : State} : s.table.station = .unconfigured ∨ s.table.station = .configured →
      Move counts lanes s (s.modTable ConfigTable.beginApply)
  | failApply {s : State} {a : Applying} : s.busy = true → s.table.applying = some a →
      Move counts lanes s (s.modTable fun t =>
        { t with station := if a.fromConfigured then .configured else .unconfigured, applying := none })
  | commit {s : State} {w : Words} : s.busy = true → validate w = .ok → s.loop.lock = .unlocked →
      Move counts lanes s (((s.modTable fun t =>
        { t with committed := w, station := .configured, applying := none }).freshTrays).setDoubt 0)
  | join {s : State} : s.table.station = .configured → Move counts lanes s s.joinLine
  | leave {s : State} : s.table.station = .online → Move counts lanes s (s.setStation .leaving)
  | endLeaving {s : State} : s.leavingDone = true → Move counts lanes s s.endLeaving
  | reset (s : State) : Move counts lanes s s.resetBlocks

/-- Changes one after another. -/
abbrev Moves (counts lanes : Prop) : State → State → Prop := Relation.ReflTransGen (Move counts lanes)

variable {C L : Prop}

theorem Move.moves {s t : State} (h : Move C L s t) : Moves C L s t := .single h

theorem PlanWork.moves {s t : State} (h : PlanWork s t) : Moves C L s t := .single (.plan h)

/-- A property that every change keeps is kept by a sequence of them. -/
theorem Moves.keep {I : State → Prop} (h : ∀ s t, Move C L s t → I s → I t) {s t : State}
    (m : Moves C L s t) (hs : I s) : I t := by
  induction m with
  | refl => exact hs
  | tail _ k ih => exact h _ _ k ih

end Sys2Proof.Machine
end


section
/-! SUPPORT. The end of LEAVING (R106, R165), field by field. -/

namespace Sys2Proof.Machine

/-- R106, R165: a lane as the end of LEAVING leaves it. -/
def LaneCtl.left (c : LaneCtl) : LaneCtl :=
  { c.deleteList with
    state := .stopped, reason := .station, removal := c.removal || !c.parcels.isEmpty }

theorem LaneCtl.left_left (c : LaneCtl) : c.left.left = c.left := by
  simp [LaneCtl.left, LaneCtl.deleteList]

theorem LaneCtl.left_cleared (c : LaneCtl) : c.left.cleared = true := by
  simp [LaneCtl.left, LaneCtl.deleteList, LaneCtl.cleared]

theorem State.enterLane_of_ne_running (s : State) (l : Lane) {st : LaneState} (h : st ≠ .running)
    (reason : LaneReason) :
    s.enterLane l st reason = (s.modLane l fun c =>
      { c with state := st, reason := reason, removal := removalOnEntry st c.removal }).queueReport
        (.lane l st reason) := by
  simp [State.enterLane, h]

/-- R106: a lane left changes that lane, and queues its report where it was not STOPPED. -/
theorem State.laneLeft_eq (s : State) (l : Lane) :
    s.laneLeft l = if (s.lane l).state = .stopped then s.modLane l LaneCtl.left
      else (s.modLane l LaneCtl.left).queueReport (.lane l .stopped .station) := by
  unfold State.laneLeft
  split
  · rename_i h
    cases l <;> simp_all [State.modLane, LaneCtl.left, LaneCtl.deleteList, State.lane, Two.get, Two.set]
  · rename_i h
    rw [State.enterLane_of_ne_running _ _ (by decide)]
    cases l <;> rfl

theorem State.laneLeft_lane (s : State) (l m : Lane) :
    (s.laneLeft l).lane m = if m = l then (s.lane m).left else s.lane m := by
  rw [State.laneLeft_eq]
  by_cases h : m = l
  · subst h; split <;> simp
  · split <;> simp [h, State.modLane_lane_ne]

/-- A lane left moves the lanes and the report FIFO alone. -/
theorem State.laneLeft_frame (s : State) (l : Lane) :
    s.laneLeft l = { s with lanes := (s.laneLeft l).lanes, rep := (s.laneLeft l).rep } := by
  rw [State.laneLeft_eq]
  split <;> rfl

theorem State.laneLefts_frame (ls : List Lane) (s : State) :
    ls.foldl State.laneLeft s =
      { s with lanes := (ls.foldl State.laneLeft s).lanes, rep := (ls.foldl State.laneLeft s).rep } := by
  induction ls generalizing s with
  | nil => rfl
  | cons l ls ih =>
    rw [List.foldl_cons, ih, State.laneLeft_frame]

theorem State.laneLefts_lane (ls : List Lane) (s : State) (m : Lane) :
    (ls.foldl State.laneLeft s).lane m = if m ∈ ls then (s.lane m).left else s.lane m := by
  induction ls generalizing s with
  | nil => rfl
  | cons l ls ih =>
    rw [List.foldl_cons, ih, State.laneLeft_lane]
    by_cases h : m = l
    · subst h; by_cases k : m ∈ ls <;> simp [k, LaneCtl.left_left]
    · simp [h]

theorem State.laneLeft_grows (s : State) (l : Lane) : RepGrows s.rep (s.laneLeft l).rep := by
  rw [State.laneLeft_eq]
  split
  · exact .refl _
  · exact State.queueReport_grows _ _

theorem State.laneLefts_grows (ls : List Lane) (s : State) :
    RepGrows s.rep (ls.foldl State.laneLeft s).rep := by
  induction ls generalizing s with
  | nil => exact .refl _
  | cons l ls ih => exact (s.laneLeft_grows l).trans (ih _)

/-- The order in which the end of LEAVING takes the lanes. -/
def State.leaveOrder (s : State) : List Lane :=
  s.freeOrder s.lanesRunningOn ++ bothLanes.filter fun l => (s.lane l).state == .stopped

theorem State.mem_leaveOrder (s : State) (l : Lane) : l ∈ s.leaveOrder := by
  have h : l ∈ bothLanes := by cases l <;> decide
  simp only [State.leaveOrder, List.mem_append, (s.freeOrder_perm _).mem_iff, State.lanesRunningOn,
    List.mem_filter, h, true_and]
  by_cases e : (s.lane l).state = .stopped <;> simp [e]

/-- The state at the end of LEAVING once both lanes have been left, before its plans and its station state go. -/
def State.lanesLeft (s : State) : State :=
  s.leaveOrder.foldl State.laneLeft
    (((s.modLine LineIf.disable).freshTrays.setDoubt 0).afterOrder s.lanesRunningOn)

/-- The end of LEAVING queues reports behind those that wait. -/
theorem State.lanesLeft_grows (s : State) : RepGrows s.rep s.lanesLeft.rep := by
  have h := State.laneLefts_grows s.leaveOrder
    (((s.modLine LineIf.disable).freshTrays.setDoubt 0).afterOrder s.lanesRunningOn)
  rw [State.afterOrder_eq] at h
  unfold State.lanesLeft
  rw [State.afterOrder_eq]
  exact h

/-- R165: what the end of LEAVING leaves, field by field. -/
theorem State.endLeaving_eq (s : State) :
    s.endLeaving = { s with
      trig := .all none, aims := .all none
      trays := List.replicate s.cfgT TrayRec.fresh
      doubt := 0
      line := s.line.disable
      lanes := ⟨s.lanes.l0.left, s.lanes.l1.left⟩
      plans := .all none
      planner := { s.planner with suspended := .all false }
      rep := s.lanesLeft.rep
      table := { s.table with station := .configured }
      freeCount := s.lanesLeft.freeCount } := by
  obtain ⟨n, hn⟩ : ∃ n, ((s.modLine LineIf.disable).freshTrays.setDoubt 0).afterOrder s.lanesRunningOn =
      ((s.modLine LineIf.disable).freshTrays.setDoubt 0).setFreeCount n := ⟨_, State.afterOrder_eq _ _⟩
  have hl : s.lanesLeft.lanes = ⟨s.lanes.l0.left, s.lanes.l1.left⟩ := by
    refine Two.ext_get fun l => ?_
    have := State.laneLefts_lane s.leaveOrder (((s.modLine LineIf.disable).freshTrays.setDoubt 0).setFreeCount n) l
    rw [if_pos (s.mem_leaveOrder l), ← hn] at this
    refine this.trans ?_
    rw [hn]
    cases l <;> rfl
  have hf : s.lanesLeft = { s with
      trays := List.replicate s.cfgT TrayRec.fresh, doubt := 0, line := s.line.disable
      lanes := s.lanesLeft.lanes, rep := s.lanesLeft.rep, freeCount := s.lanesLeft.freeCount } := by
    unfold State.lanesLeft
    rw [hn, State.laneLefts_frame]
    rfl
  have he : s.endLeaving = ((((s.lanesLeft.setPlans (.all none)).setTrig (.all none)).setAims
      (.all none)).modPlanner fun p => { p with suspended := .all false }).setStation .configured := rfl
  rw [he, hf, hl]
  rfl

end Sys2Proof.Machine
end


section
/-! SUPPORT. The station state, the lanes off the line and the bounds of Safety.lean as propositions, each kept by
every change that `Move` lists. -/

namespace Sys2Proof.Machine

variable {C L : Prop}

/-! ### The committed copy (R160, R161) -/

/-- A copy that passes has station number, word ranges and lane ranges as 10.2 gives them. -/
theorem validate_ok_words {w : Words} (h : validate w = .ok) {i : Nat} (hi : i < 48) :
    wordPasses w i = true := by
  refine wordPasses_of_firstBadWord ?_ hi
  unfold validate at h
  cases hb : firstBadWord w with
  | none => rfl
  | some i => rw [hb] at h; cases h

/-- The committed copy has been validated or is all zero. -/
def State.committedOk (s : State) : Prop :=
  validate s.table.committed = .ok ∨ s.table.committed = Vector.replicate 48 0

theorem State.validated_iff (s : State) : s.validated = true ↔ validate s.table.committed = .ok := by
  simp [State.validated]

theorem wordAt_zero (i : Nat) : wordAt (Vector.replicate 48 0) i = 0 := by
  unfold wordAt
  rw [Vector.getElem?_replicate]
  split <;> rfl

/-- A bound that every passing copy meets at word `i` holds of the committed word. -/
theorem State.committedOk.cw_le {s : State} (h : s.committedOk) {i n : Nat} (hi : i < 48)
    (hw : ∀ w, wordPasses w i = true → (wordAt w i).toNat ≤ n) : s.cw i ≤ n := by
  rcases h with h | h
  · exact hw _ (validate_ok_words h hi)
  · rw [State.cw, h, wordAt_zero]; exact Nat.zero_le _

theorem State.committedOk.stationNumber_le {s : State} (h : s.committedOk) : s.stationNumber ≤ 31 :=
  h.cw_le (by decide) fun w hw => by simpa [wordPasses, wordRange, inRange] using hw

theorem State.committedOk.minGap_le {s : State} (h : s.committedOk) (l : Lane) : s.cfgMinGap l ≤ 3000 := by
  cases l <;>
    exact h.cw_le (by decide) fun w hw => by
      have hw : inRange (laneRange 6) (wordAt w _).toNat = true := hw
      simpa [inRange, laneRange] using hw

theorem State.committedOk.minEntry_le {s : State} (h : s.committedOk) (l : Lane) : s.cfgMinEntry l ≤ 15 := by
  cases l <;>
    exact h.cw_le (by decide) fun w hw => by
      have hw : inRange (laneRange 7) (wordAt w _).toNat = true := hw
      simpa [inRange, laneRange] using hw

/-- R3: with a committed configuration the loop has a length. -/
theorem State.committedOk.loopLength_pos {s : State} (h : s.committedOk) (hT : s.cfgT ≠ 0) :
    0 < s.loopLength := by
  rcases h with h | h
  · have hP : 400 ≤ (wordAt s.table.committed 3).toNat := by
      have := validate_ok_words h (i := 3) (by decide)
      simp only [wordPasses, if_true, wordRange, inRange, Bool.and_eq_true, decide_eq_true_eq] at this
      exact this.1.1
    exact Nat.mul_pos (Nat.pos_of_ne_zero hT) (Nat.lt_of_lt_of_le (by decide) hP)
  · exact absurd (by rw [State.cfgT, State.cw, h, wordAt_zero]; rfl) hT

/-! ### The station state (10.1) -/

/-- `stationSound` as a proposition. -/
structure State.StationOk (s : State) : Prop where
  committed : validate s.table.committed = .ok ∨ (s.table.committed = Vector.replicate 48 0 ∧
    (s.table.station = .unconfigured ∨ s.table.station = .applying))
  applying : s.table.applying.isSome = s.busy
  origin : ∀ a, s.table.applying = some a → a.fromConfigured = true → validate s.table.committed = .ok
  trays : s.trays.length = s.cfgT
  enabled : s.line.enabled = s.mapInUse
  queue : s.line.enabled = false → s.txq = []

theorem State.stationSound_iff (s : State) : s.stationSound = true ↔ s.StationOk := by
  have hq : (s.line.enabled || s.txq.isEmpty) = true ↔ (s.line.enabled = false → s.txq = []) := by
    cases s.line.enabled <;> simp
  unfold State.stationSound
  simp only [Bool.and_eq_true, Bool.or_eq_true, beq_iff_eq, State.validated_iff]
  rw [← Bool.or_eq_true, hq]
  constructor
  · rintro ⟨⟨⟨⟨⟨hc, ha⟩, ho⟩, ht⟩, he⟩, hq⟩
    refine ⟨hc, ha, fun a e hf => ?_, ht, he, hq⟩
    simpa [e, hf, State.validated] using ho
  · rintro ⟨hc, ha, ho, ht, he, hq⟩
    refine ⟨⟨⟨⟨⟨hc, ha⟩, ?_⟩, ht⟩, he⟩, hq⟩
    cases e : s.table.applying with
    | none => rfl
    | some a => cases hf : a.fromConfigured <;> simp [State.validated, hf, ho a e]

theorem State.StationOk.committedOk {s : State} (h : s.StationOk) : s.committedOk :=
  h.committed.imp_right And.left

theorem State.StationOk.validated_of_mapInUse {s : State} (h : s.StationOk) (hm : s.mapInUse = true) :
    validate s.table.committed = .ok := by
  rcases h.committed with hc | ⟨-, hc | hc⟩
  · exact hc
  · simp [State.mapInUse, hc] at hm
  · simp [State.mapInUse, hc] at hm

/-- A change that leaves table, number of trays, ENABLED and an empty queue keeps the station state. -/
theorem State.StationOk.of_same {s t : State} (h : s.StationOk) (ht : t.table = s.table)
    (htr : t.trays.length = s.trays.length) (he : t.line.enabled = s.line.enabled)
    (hq : s.line.enabled = false → s.txq = [] → t.txq = []) : t.StationOk where
  committed := by rw [ht]; exact h.committed
  applying := by simp only [State.busy, ht]; exact h.applying
  origin := by rw [ht]; exact h.origin
  trays := by
    rw [htr, h.trays]
    simp [State.cfgT, State.cw, ht]
  enabled := by
    rw [he, h.enabled]
    simp [State.mapInUse, ht]
  queue := fun e => hq (he ▸ e) (h.queue (he ▸ e))

theorem PlanWork.stationOk {s t : State} (w : PlanWork s t) (h : s.StationOk) : t.StationOk :=
  h.of_same w.table w.trays w.enabled fun a b =>
    w.disabled a (by rw [← h.enabled]; exact a) b

theorem State.setTrays_cfgT (s : State) (v : List TrayRec) : (s.setTrays v).cfgT = s.cfgT := rfl

/-- The defect list changes conditions, not the number of records (R20). -/
theorem State.joinTrays_length (s : State) : s.joinTrays.trays.length = s.cfgT := by
  have h : ∀ (ks : List Nat) (u : State),
      (ks.foldl (fun s k => s.modTray k fun r => { r with cond := .defective }) u).trays.length =
        u.trays.length := by
    intro ks
    induction ks with
    | nil => exact fun _ => rfl
    | cons k ks ih => exact fun u => (ih _).trans (u.modTray_length _ _)
  refine (h s.defectList s.freshTrays).trans ?_
  simp [State.freshTrays]

/-- The records of the join event, and the doubt window, are all that the join event changes. -/
theorem State.joinTrays_eq (s : State) :
    s.joinTrays = { s with trays := s.joinTrays.trays, doubt := min s.cfgDoubtDistance s.loopLength } := by
  have h : ∀ (ks : List Nat) (u : State),
      ks.foldl (fun s k => s.modTray k fun r => { r with cond := .defective }) u =
        u.setTrays (ks.foldl (fun s k => s.modTray k fun r => { r with cond := .defective }) u).trays := by
    intro ks
    induction ks with
    | nil => exact fun _ => rfl
    | cons k ks ih => exact fun u => by rw [List.foldl_cons, ih]; rfl
  unfold State.joinTrays
  rw [h]
  rfl

/-- R163: what JOIN in CONFIGURED changes before the end of its event. -/
theorem State.joinLine_eq (s : State) :
    s.joinLine = { s with
      trays := s.joinTrays.trays, doubt := min s.cfgDoubtDistance s.loopLength
      line := s.line.enable, table := { s.table with station := .online } } := by
  unfold State.joinLine
  rw [State.joinTrays_eq]
  rfl

theorem Move.stationOk {s t : State} (m : Move C L s t) (h : s.StationOk) : t.StationOk := by
  cases m with
  | plan w => exact w.stationOk h
  | line hl => exact h.of_same rfl rfl hl.enabled fun _ q => q
  | queue hq => exact h.of_same rfl rfl rfl fun _ q => List.eq_nil_of_length_eq_zero (by simp_all)
  | pins | outs | clock | port | rep | pace | lane | doubt | entries | window | loop =>
    exact h.of_same rfl rfl rfl fun _ q => q
  | words => exact ⟨h.committed, h.applying, h.origin, h.trays, h.enabled, h.queue⟩
  | applyTimer n =>
    refine ⟨h.committed, ?_, fun a ha hc => ?_, h.trays, h.enabled, h.queue⟩
    · exact Option.isSome_map.trans h.applying
    · obtain ⟨b, hb, rfl⟩ := Option.map_eq_some_iff.1 ha
      exact h.origin b hb hc
  | beginApply hst =>
    have hm : s.mapInUse = false := by rcases hst with e | e <;> simp [State.mapInUse, e]
    refine ⟨?_, rfl, fun a ha hc => ?_, h.trays, h.enabled.trans hm, h.queue⟩
    · exact h.committed.imp_right fun hz => ⟨hz.1, .inr rfl⟩
    · obtain rfl := Option.some.inj ha
      have hc : s.table.station = .configured := by simpa using hc
      exact h.committed.elim id fun hz => by simp [hc] at hz
  | failApply hb ha =>
    rename_i a
    have hst : s.table.station = .applying := by simpa [State.busy] using hb
    have hm : s.mapInUse = false := by simp [State.mapInUse, hst]
    have ho := h.origin a ha
    refine ⟨?_, ?_, (fun _ ha => by cases ha), h.trays, ?_, h.queue⟩
    · cases hf : a.fromConfigured
      · exact h.committed.imp_right fun hz => ⟨hz.1, .inl (by simp)⟩
      · exact .inl (ho hf)
    · cases a.fromConfigured <;> simp [State.busy]
    · rw [show (s.modTable _).line = s.line from rfl, h.enabled, hm]
      cases a.fromConfigured <;> simp [State.mapInUse]
  | commit hb hv _ =>
    have hst : s.table.station = .applying := by simpa [State.busy] using hb
    have hm : s.mapInUse = false := by simp [State.mapInUse, hst]
    exact ⟨.inl hv, rfl, (fun _ ha => by cases ha), List.length_replicate .., h.enabled.trans hm, h.queue⟩
  | join hc =>
    have hv : validate s.table.committed = .ok :=
      h.committed.elim id fun hz => by simp [hc] at hz
    have hn : s.table.applying.isSome = false := by simp [h.applying, State.busy, hc]
    rw [s.joinLine_eq]
    exact ⟨.inl hv, hn, fun _ _ _ => hv, s.joinTrays_length, rfl, fun e => by cases e⟩
  | leave ho =>
    have hm : s.mapInUse = true := by simp [State.mapInUse, ho]
    refine ⟨.inl (h.validated_of_mapInUse hm), ?_, h.origin, h.trays, h.enabled.trans hm, h.queue⟩
    exact h.applying.trans (by simp [State.busy, ho, State.setStation])
  | endLeaving hd =>
    obtain ⟨⟨⟨hst, -⟩, -⟩, hq⟩ : ((s.table.station = .leaving ∧ s.lanes.l0.launchRuns = false) ∧
        s.lanes.l1.launchRuns = false) ∧ s.txq = [] := by
      simpa [State.leavingDone] using hd
    have hm : s.mapInUse = true := by simp [State.mapInUse, hst]
    have hv := h.validated_of_mapInUse hm
    rw [s.endLeaving_eq]
    refine ⟨.inl hv, ?_, h.origin, List.length_replicate .., rfl, fun _ => hq⟩
    exact h.applying.trans (by simp [State.busy, hst])
  | reset =>
    exact ⟨.inr ⟨rfl, .inl rfl⟩, rfl, (fun _ ha => by cases ha), rfl, rfl, fun _ => rfl⟩

/-! ### Off the line (10.1, R118) -/

/-- `offlineIdle` as a proposition. -/
def State.OffIdle (s : State) : Prop :=
  s.mapInUse = false → (∀ l, (s.lane l).cleared = true) ∧ s.plans = .all none

theorem State.offlineIdle_iff (s : State) : s.offlineIdle = true ↔ s.OffIdle := by
  have h : (∀ l, (s.lane l).cleared = true) ↔
      s.lanes.l0.cleared = true ∧ s.lanes.l1.cleared = true :=
    ⟨fun k => ⟨k .l0, k .l1⟩, fun k l => by cases l; exacts [k.1, k.2]⟩
  simp only [State.offlineIdle, State.OffIdle, h, Bool.or_eq_true, Bool.and_eq_true, beq_iff_eq]
  cases s.mapInUse <;> simp

theorem LaneCtl.cleared_iff (c : LaneCtl) :
    c.cleared = true ↔ c.state = .stopped ∧ c.parcels = [] ∧ c.launch = none ∧ c.transfer = none ∧
      c.feed = false ∧ c.gapTest = none ∧ c.early = none := by
  simp only [LaneCtl.cleared, Bool.and_eq_true, beq_iff_eq, List.isEmpty_iff, Option.isNone_iff_eq_none,
    Bool.not_eq_true', and_assoc]

theorem PlanWork.cleared {s t : State} (w : PlanWork s t) (hm : s.mapInUse = false)
    (hp : s.plans = .all none) {l : Lane} (h : (s.lane l).cleared = true) :
    (t.lane l).cleared = true := by
  obtain ⟨hst, hpc, hl, htr, hf, hg, he⟩ := (LaneCtl.cleared_iff _).1 h
  have k := w.lanes l
  refine (LaneCtl.cleared_iff _).2 ⟨k.stopped hst, ?_, ?_, k.transfer.trans htr, k.feed.trans hf,
    k.gapTest.trans hg, k.early.trans he⟩
  · have := k.parcels
    rw [hpc] at this
    exact this.nil_of_nil
  · exact ((w.noPlans hp hm).2 l hpc).trans hl

theorem Move.offIdle {s t : State} (m : Move C False s t) (h : s.OffIdle) : t.OffIdle := by
  cases m with
  | plan w =>
    intro hm
    have hm : s.mapInUse = false := w.mapInUse.symm.trans hm
    obtain ⟨hl, hp⟩ := h hm
    exact ⟨fun l => w.cleared hm hp (hl l), (w.noPlans hp hm).1⟩
  | @lane l f _ hl =>
    intro hm
    obtain ⟨hc, hp⟩ := h hm
    refine ⟨fun m => ?_, hp⟩
    by_cases e : m = l
    · subst e
      rw [State.modLane_lane_self]
      rcases hl with hl | hu | k
      · exact hl.elim
      · exact absurd (hu.symm.trans hm) (by decide)
      · exact k (hc m)
    · rw [State.modLane_lane_ne _ _ e]; exact hc m
  | pins | outs | clock | port | rep | pace | line | queue | doubt | entries | window | loop | words |
    applyTimer => exact h
  | beginApply hst =>
    exact fun _ => h (by rcases hst with e | e <;> simp [State.mapInUse, e])
  | failApply hb _ =>
    exact fun _ => h (by simp_all [State.mapInUse, State.busy])
  | commit hb _ _ =>
    exact fun _ => h (by simp_all [State.mapInUse, State.busy])
  | join hc =>
    intro hm
    rw [s.joinLine_eq] at hm
    cases hm
  | leave ho =>
    intro hm
    simp [State.mapInUse, State.setStation] at hm
  | endLeaving hd =>
    intro _
    rw [s.endLeaving_eq]
    exact ⟨fun l => by cases l <;> exact LaneCtl.left_cleared _, rfl⟩
  | reset => exact fun _ => ⟨fun l => by cases l <;> rfl, rfl⟩

end Sys2Proof.Machine
end


section
/-! SUPPORT. The bounds of Safety.lean, kept by every change that `Move` lists. -/

namespace Sys2Proof.Machine

variable {C L : Prop}

/-- `withinBounds` as a proposition. -/
structure State.Bounded (s : State) : Prop where
  inbound : s.port.inbound.length ≤ 64
  reports : s.rep.fifo.length ≤ 128
  queue : s.txq.length ≤ 8
  line : s.line.Bounded
  doubt : s.doubt ≤ s.loopLength
  pool : s.lanes.l0.parcels.length + s.lanes.l1.parcels.length ≤ 16
  pointer : s.table.pointer ≤ 47
  loop : s.loop.Bounded
  list : ∀ l, (s.lane l).parcels.length ≤ s.cfgCapacity l + 3
  lane : ∀ l, (s.lane l).Bounded (s.cfgMinGap l)
  pace : ∀ l, (s.pace.lanes.get l).Bounded

theorem State.laneWithinBounds_iff (s : State) (l : Lane) :
    s.laneWithinBounds l = true ↔ (s.lane l).parcels.length ≤ s.cfgCapacity l + 3 ∧
      (s.lane l).Bounded (s.cfgMinGap l) ∧ (s.pace.lanes.get l).Bounded := by
  simp only [State.laneWithinBounds, Bool.and_eq_true, decide_eq_true_eq, Bool.or_eq_true,
    Option.isNone_iff_eq_none, and_assoc]
  exact ⟨fun ⟨a, b, c, d, e, f, g⟩ => ⟨a, ⟨b, c, d, e⟩, ⟨f, g⟩⟩,
    fun ⟨a, ⟨b, c, d, e⟩, ⟨f, g⟩⟩ => ⟨a, b, c, d, e, f, g⟩⟩

theorem State.withinBounds_iff (s : State) : s.withinBounds = true ↔ s.Bounded := by
  simp only [State.withinBounds, Bool.and_eq_true, decide_eq_true_eq, State.laneWithinBounds_iff, and_assoc]
  constructor
  · rintro ⟨hi, hr, hq, hb, ha, ho, hd, hh, hw, hp, hn, hv, hl, hu, ht, hs, c0, b0, p0, c1, b1, p1⟩
    exact ⟨hi, hr, hq, ⟨hb, ha, ho, hd, hh⟩, hw, hp, hn, ⟨hv, hl, hu, ht, hs⟩, fun l => by
      cases l <;> assumption, fun l => by cases l <;> assumption, fun l => by cases l <;> assumption⟩
  · rintro ⟨hi, hr, hq, ⟨hb, ha, ho, hd, hh⟩, hw, hp, hn, ⟨hv, hl, hu, ht, hs⟩, c, b, p⟩
    exact ⟨hi, hr, hq, hb, ha, ho, hd, hh, hw, hp, hn, hv, hl, hu, ht, hs, c .l0, b .l0, p .l0, c .l1,
      b .l1, p .l1⟩

theorem LineIf.reset_bounded : LineIf.reset.Bounded :=
  ⟨by decide, by decide, by decide, by decide, by decide⟩

theorem LoopTracker.reset_bounded : LoopTracker.reset.Bounded :=
  ⟨by decide, by decide, by decide, by decide, by decide⟩

theorem LaneCtl.reset_bounded (n : Nat) : LaneCtl.reset.Bounded n :=
  ⟨by decide, by decide, .inl rfl, by decide⟩

theorem PaceLane.reset_bounded : PaceLane.reset.Bounded := ⟨by decide, by decide⟩

theorem LineIf.Bounded.newHead {c : LineIf} (h : c.Bounded) : c.newHead.Bounded :=
  ⟨h.rxBuf, Nat.zero_le _, Nat.zero_le _, h.idleRun, Nat.zero_le _⟩

/-- The state's pool and lists after a change of the lanes that lets no list grow. -/
theorem State.Bounded.of_lists {s t : State} (h : s.Bounded)
    (hl : ∀ l, (t.lane l).parcels.length ≤ (s.lane l).parcels.length) :
    t.lanes.l0.parcels.length + t.lanes.l1.parcels.length ≤ 16 :=
  (Nat.add_le_add (hl .l0) (hl .l1)).trans h.pool

theorem PlanWork.bounded {s t : State} (w : PlanWork s t) (h : s.Bounded) : t.Bounded := by
  have hlist : ∀ l, (t.lane l).parcels.length ≤ (s.lane l).parcels.length :=
    fun l => (w.lanes l).parcels.length_le
  have hcw : ∀ i, t.cw i = s.cw i := w.cw
  refine
    { inbound := by rw [w.port]; exact h.inbound
      reports := w.rep.room h.reports
      queue := w.queue h.queue
      line := by
        rcases w.line with e | e <;> rw [e]
        · exact h.line
        · exact h.line.newHead
      doubt := by simpa [w.doubt, State.loopLength, State.cfgT, State.cfgP, hcw] using h.doubt
      pool := h.of_lists hlist
      pointer := by rw [w.table]; exact h.pointer
      loop := by rw [w.loop]; exact h.loop
      list := fun l => by
        simpa [State.cfgCapacity, hcw] using (hlist l).trans (h.list l)
      lane := fun l => ?_
      pace := by rw [w.pace]; exact h.pace }
  have k := w.lanes l
  have b := h.lane l
  exact ⟨k.measure ▸ b.measure, k.gapCount ▸ b.gapCount,
    by simpa [k.gapTest, k.gapCount, State.cfgMinGap, hcw] using b.gapTest,
    k.buttonFilter ▸ b.buttonFilter⟩

/-- R85: a record that joins where there is room keeps the pool. -/
theorem State.Bounded.lane_pool {s : State} (h : s.Bounded) {l : Lane} {d : LaneCtl} (m : LaneMove s l d) :
    (s.lanes.set l d).l0.parcels.length + (s.lanes.set l d).l1.parcels.length ≤ 16 := by
  have hp := h.pool
  rcases m.parcels with hk | ⟨hr, hk⟩
  · cases l <;> simp only [State.lane, Two.get, Two.set] at hk ⊢ <;> omega
  · have hr : s.lanes.l0.parcels.length + s.lanes.l1.parcels.length < 16 := by
      simp only [State.hasRoom, Bool.and_eq_true, decide_eq_true_eq] at hr; exact hr.2
    cases l <;> simp only [State.lane, Two.get, Two.set] at hk ⊢ <;> omega

theorem State.Bounded.lane_list {s : State} (h : s.Bounded) {l : Lane} {d : LaneCtl} (m : LaneMove s l d) :
    d.parcels.length ≤ s.cfgCapacity l + 3 := by
  rcases m.parcels with hk | ⟨hr, hk⟩
  · exact hk.trans (h.list l)
  · simp only [State.hasRoom, Bool.and_eq_true, decide_eq_true_eq] at hr
    omega

theorem LaneCtl.Bounded.of_gapTest_none {m n : Nat} {c : LaneCtl} (h : c.Bounded m) (hg : c.gapTest = none) :
    c.Bounded n :=
  ⟨h.measure, h.gapCount, .inl hg, h.buttonFilter⟩

theorem Move.bounded {s t : State} (m : Move C L s t) (hs : s.StationOk) (ho : s.OffIdle) (h : s.Bounded) :
    t.Bounded := by
  have hc := hs.committedOk
  cases m with
  | plan w => exact w.bounded h
  | pins | outs | clock | entries | applyTimer | beginApply | failApply | leave =>
    exact { h with }
  | port hi => exact { h with inbound := hi h.inbound }
  | rep hr => exact { h with reports := hr.trans h.reports }
  | line hl => exact { h with line := hl.bounded hc.stationNumber_le h.line }
  | queue hq => exact { h with queue := hq.trans h.queue }
  | pace hp => exact { h with pace := fun l => hp l (hc.minEntry_le l) (h.pace l) }
  | @lane l f hl _ =>
    have hne : ∀ {m}, m ≠ l → (s.modLane l f).lane m = s.lane m := fun e => State.modLane_lane_ne _ _ e
    refine { h with pool := h.lane_pool hl, list := fun m => ?_, lane := fun m => ?_ }
    · by_cases e : m = l
      · subst e; rw [State.modLane_lane_self]; exact h.lane_list hl
      · rw [hne e]; exact h.list m
    · by_cases e : m = l
      · subst e; rw [State.modLane_lane_self]; exact hl.bounded (hc.minGap_le m) (h.lane m)
      · rw [hne e]; exact h.lane m
  | doubt hd => exact { h with doubt := hd.elim (fun k => k.trans h.doubt) id }
  | window hw _ => exact { h with loop := hw h.loop }
  | loop _ hw => exact { h with loop := hw h.loop }
  | words hn => exact { h with pointer := hn h.pointer }
  | commit hb _ _ =>
    obtain ⟨hl, -⟩ := ho (by simp_all [State.mapInUse, State.busy])
    have hl := fun l => (LaneCtl.cleared_iff _).1 (hl l)
    refine { h with doubt := Nat.zero_le _, list := fun l => ?_, lane := fun l => ?_ }
    · obtain ⟨-, hp, -⟩ := hl l
      exact (congrArg List.length hp).trans_le (Nat.zero_le _)
    · obtain ⟨-, -, -, -, -, hg, -⟩ := hl l
      exact (h.lane l).of_gapTest_none hg
  | join =>
    rw [s.joinLine_eq]
    exact { h with
      doubt := Nat.min_le_right _ _
      line := ⟨Nat.zero_le _, Nat.zero_le _, Nat.zero_le _, h.line.idleRun, Nat.zero_le _⟩ }
  | endLeaving =>
    rw [s.endLeaving_eq]
    exact { h with
      reports := s.lanesLeft_grows.room h.reports
      line := ⟨Nat.zero_le _, h.line.attempt, h.line.backoff, h.line.idleRun, h.line.holdCount⟩
      doubt := Nat.zero_le _, pool := Nat.zero_le _
      list := fun l => by cases l <;> exact Nat.zero_le _
      lane := fun l => by
        have b := h.lane l
        cases l <;> exact ⟨b.measure, b.gapCount, .inl rfl, b.buttonFilter⟩ }
  | reset =>
    exact
      { inbound := Nat.zero_le _, reports := Nat.zero_le _, queue := Nat.zero_le _
        line := LineIf.reset_bounded, doubt := Nat.zero_le _
        pool := Nat.zero_le _, pointer := Nat.zero_le _
        loop := LoopTracker.reset_bounded
        list := fun l => by cases l <;> exact Nat.zero_le _
        lane := fun l => by cases l <;> exact LaneCtl.reset_bounded _
        pace := fun l => by cases l <;> exact PaceLane.reset_bounded }

end Sys2Proof.Machine
end


section
/-! SUPPORT. The shared operations as changes: reports, lanes, paces, the end of an event, lock lost. -/

namespace Sys2Proof.Machine

variable {C L : Prop}

/-! ### One lane, one pace -/

theorem State.queueReport_moves (s : State) (r : Report) : Moves C L s (s.queueReport r) :=
  (s.queueReport_planWork r).moves

theorem State.drive_moves (s : State) : Moves C L s s.drive := (Move.outs s s.outputs).moves

/-- A change of a lane that leaves the number of its records and its counts. -/
theorem LaneMove.of_counts {s : State} {l : Lane} {d : LaneCtl}
    (hp : d.parcels.length ≤ (s.lane l).parcels.length)
    (hb : ∀ n, (s.lane l).Bounded n → d.Bounded n) : LaneMove s l d :=
  ⟨.inl hp, fun _ => hb _⟩

/-- A pace changed on one lane, its bounds kept. -/
theorem State.modPaceLane_moves (s : State) (l : Lane) {f : PaceLane → PaceLane}
    (h : s.cfgMinEntry l ≤ 15 → (s.pace.lanes.get l).Bounded → (f (s.pace.lanes.get l)).Bounded) :
    Moves C L s (s.modPaceLane l f) := by
  refine (Move.pace fun m he hb => ?_).moves
  by_cases e : m = l
  · subst e; simpa using h he hb
  · simpa [Two.get_set_ne _ _ e] using hb

theorem State.paceRestart_moves (s : State) (l : Lane) : Moves C L s (s.paceRestart l) :=
  s.modPaceLane_moves l fun _ _ => ⟨le_rfl, Nat.zero_le _⟩

/-- A lane entered: off the line only one that is not STOPPED already, or that stops. -/
theorem State.enterLane_moves (s : State) (l : Lane) (st : LaneState) (reason : LaneReason)
    (h : L ∨ s.mapInUse = true ∨ (s.lane l).state ≠ .stopped ∨ st = .stopped) :
    Moves C L s (s.enterLane l st reason) := by
  unfold State.enterLane
  have hm : Move C L s (s.modLane l fun c =>
      { c with state := st, reason := reason, removal := removalOnEntry st c.removal }) := by
    refine .lane (.of_counts le_rfl fun n b => ⟨b.measure, b.gapCount, b.gapTest, b.buttonFilter⟩) ?_
    refine h.imp_right (Or.imp_right fun k hc => ?_)
    obtain ⟨hs, hrest⟩ := (LaneCtl.cleared_iff _).1 hc
    exact (LaneCtl.cleared_iff _).2 ⟨k.elim (absurd hs) id, hrest⟩
  dsimp only
  split
  · exact (hm.moves.trans (State.paceRestart_moves _ _)).trans (State.queueReport_moves _ _)
  · exact hm.moves.trans (State.queueReport_moves _ _)

/-! ### The end of an event -/

theorem State.mapInUse_of_online {s : State} (h : s.online = true) : s.mapInUse = true := by
  simp only [State.online, beq_iff_eq] at h
  simp [State.mapInUse, h]

/-- R91: a transfer begins on the line alone. -/
theorem State.online_of_transferReady {s : State} {l : Lane} {r : Parcel}
    (h : s.transferReady? l = some r) : s.online = true := by
  unfold State.transferReady? at h
  dsimp only at h
  split at h
  · rename_i hc
    simp only [Bool.and_eq_true] at hc
    exact hc.1.1
  · cases h

theorem State.startTransfer_moves (s : State) (l : Lane) : Moves C L s (s.startTransfer l) := by
  unfold State.startTransfer
  split
  · rename_i r hr
    refine (Move.lane (.of_counts (by simp [LaneCtl.modParcel]) fun n b =>
      ⟨b.measure, b.gapCount, b.gapTest, b.buttonFilter⟩) (.inr (.inl ?_))).moves
    exact State.mapInUse_of_online (State.online_of_transferReady hr)
  · exact .refl

theorem State.feedRuns_of_stopped {s : State} {l : Lane} (h : (s.lane l).state = .stopped) :
    s.feedRuns l = false := by
  simp [State.feedRuns, h]

theorem State.updateFeed_moves (s : State) (l : Lane) : Moves C L s (s.updateFeed l) := by
  refine (Move.lane (.of_counts le_rfl fun n b =>
    ⟨b.measure, b.gapCount, b.gapTest, b.buttonFilter⟩) (.inr (.inr fun hc => ?_))).moves
  obtain ⟨hs, hp, hl, ht, -, hrest⟩ := (LaneCtl.cleared_iff _).1 hc
  exact (LaneCtl.cleared_iff _).2 ⟨hs, hp, hl, ht, State.feedRuns_of_stopped hs, hrest⟩

theorem State.testLeaving_moves (s : State) : Moves C L s s.testLeaving := by
  unfold State.testLeaving
  split
  · exact (Move.endLeaving ‹_›).moves
  · exact .refl

theorem State.retakeAspect_moves (s : State) (l : Lane) : Moves C L s (s.retakeAspect l) :=
  s.modPaceLane_moves l fun _ b => by
    obtain ⟨hi, -, hh, -⟩ := PaceLane.become_kept (s.pace.lanes.get l) (s.aspectOf l)
    exact ⟨hi ▸ b.index, hh ▸ b.hyst⟩

theorem State.finish_moves (s before : State) (test : Bool) : Moves C L s (s.finish before test) := by
  have hf : Moves C L s s.updateFeeds := (s.updateFeed_moves .l0).trans (State.updateFeed_moves _ .l1)
  have hr : ∀ u : State, Moves C L u u.retakeAspects.drive := fun u =>
    ((u.retakeAspect_moves .l0).trans (State.retakeAspect_moves _ .l1)).trans (State.drive_moves _)
  unfold State.finish
  dsimp only
  split
  · exact (hf.trans (State.testLeaving_moves _)).trans (hr _)
  · exact hf.trans (hr _)

theorem State.settle_moves (s before : State) (planning test : Bool) :
    Moves C L s (s.settle before planning test) := by
  obtain ⟨u, w, -, e⟩ := s.settle_cases before planning test
  rw [e]
  have ht : Moves C L s s.startTransfers :=
    (s.startTransfer_moves .l0).trans (State.startTransfer_moves _ .l1)
  exact (ht.trans w.moves).trans (State.finish_moves _ _ _)

/-! ### Lock lost, counts and markers -/

theorem LoopTracker.unlock_bounded {c : LoopTracker} (h : c.Bounded) : c.unlock.Bounded :=
  ⟨h.vs, h.windowLow, h.windowHigh, h.windowTimer, h.standstill⟩

/-- A change of the lock and the counts of positions that leaves the speed window. -/
theorem State.modLoop_moves (hC : C) (s : State) {f : LoopTracker → LoopTracker}
    (h : s.loop.Bounded → (f s.loop).Bounded) : Moves C L s (s.modLoop f) :=
  (Move.loop hC h).moves

/-- R7: lock lost, up to the restart of the paces. -/
theorem State.lockLost_moves' (hC : C) (s : State) :
    ∃ u, Moves C L s u ∧ u.pace = s.pace ∧ u.loop.lock = .unlocked ∧
      s.lockLost = (u.paceRestart .l0).paceRestart .l1 := by
  obtain ⟨u, w, e⟩ := s.lockLost_planWork
  refine ⟨u, ?_, w.pace, ?_, e⟩
  · exact (((s.modLoop_moves hC LoopTracker.unlock_bounded).tail (Move.entries _)).trans
      (State.queueReport_moves _ _)).trans w.moves
  · rw [w.loop]; rfl

theorem State.lockLost_moves (hC : C) (s : State) : Moves C L s s.lockLost := by
  obtain ⟨u, m, -, -, e⟩ := s.lockLost_moves' (L := L) hC
  rw [e]
  exact (m.trans (u.paceRestart_moves .l0)).trans (State.paceRestart_moves _ .l1)

theorem State.newlyReached_moves (s : State) (p : Nat) (h : s.locked = true) :
    Moves C L s (s.newlyReached p) := by
  obtain ⟨u, w, e⟩ := s.newlyReached_planWork p h
  rw [e]
  exact w.moves.tail (Move.doubt (.inl (Nat.sub_le _ _)))

theorem State.declareMissing_moves (hC : C) (s : State) : Moves C L s s.declareMissing := by
  unfold State.declareMissing
  split
  · exact (s.modLoop_moves hC fun b => ⟨b.vs, b.windowLow, b.windowHigh, b.windowTimer, b.standstill⟩).trans
      (State.queueReport_moves _ _)
  · exact s.lockLost_moves hC

theorem State.stepForward_moves (hC : C) (s : State) : Moves C L s s.stepForward :=
  s.modLoop_moves hC fun b => by
    split <;> exact ⟨b.vs, b.windowLow, b.windowHigh, b.windowTimer, b.standstill⟩

theorem State.stepForward_locked (s : State) : s.stepForward.locked = s.locked := by
  unfold State.stepForward State.locked
  simp only [State.modLoop_loop]
  split <;> rfl

theorem State.forwardCount_moves (hC : C) (s : State) (h : s.locked = true) :
    Moves C L s s.forwardCount := by
  unfold State.forwardCount
  have m : Moves C L s (s.stepForward.modLoop fun c => { c with travel := c.travel + 1 }) :=
    (s.stepForward_moves hC).trans (State.modLoop_moves hC _ fun b =>
      ⟨b.vs, b.windowLow, b.windowHigh, b.windowTimer, b.standstill⟩)
  have hl : (s.stepForward.modLoop fun c => { c with travel := c.travel + 1 }).locked = true :=
    s.stepForward_locked.trans h
  generalize (s.stepForward.modLoop fun c => { c with travel := c.travel + 1 }) = s1 at m hl ⊢
  have hb : Moves C L s s1.bumpFree := m.trans s1.bumpFree_planWork.moves
  dsimp only
  split
  · split
    · split
      · exact (hb.trans (State.newlyReached_moves _ _ hl)).trans (State.declareMissing_moves hC _)
      · have hd := hb.trans (State.declareMissing_moves hC s1.bumpFree)
        split
        · exact hd.trans (State.newlyReached_moves _ _ ‹_›)
        · exact hd
    · exact m.trans (State.newlyReached_moves _ _ hl)
  · split
    · exact m.trans (State.declareMissing_moves hC _)
    · exact m

theorem State.backwardCount_moves (hC : C) (s : State) : Moves C L s s.backwardCount := by
  unfold State.backwardCount
  split
  · exact s.lockLost_moves hC
  · exact s.modLoop_moves hC fun b => ⟨b.vs, b.windowLow, b.windowHigh, b.windowTimer, b.standstill⟩

/-- 1.1: the window count stays in its range, whatever free value is taken beyond it. -/
theorem State.boundedWindow_range (s : State) (n : Int) :
    -65535 ≤ s.boundedWindow n ∧ s.boundedWindow n ≤ 65535 := by
  unfold State.boundedWindow
  simp only [Config.windowCountMax]
  split_ifs
  · have := Nat.mod_lt (Config.free s.freeCount) (show 2 * 65535 + 1 > 0 by decide)
    simp only [Int.ofNat_eq_natCast]
    omega
  · omega

theorem State.afterWindow_planWork (s : State) (n : Int) : PlanWork s (s.afterWindow n) := by
  unfold State.afterWindow
  split
  · exact s.bumpFree_planWork
  · exact .refl s

theorem State.countWindow_moves (s : State) (forward : Bool) : Moves C L s (s.countWindow forward) := by
  unfold State.countWindow
  refine (State.afterWindow_planWork s _).moves.tail (Move.window (fun b => ?_) ⟨rfl, rfl, rfl, rfl, rfl, rfl⟩)
  obtain ⟨hl, hh⟩ := s.boundedWindow_range (s.loop.windowCount + if forward then 1 else -1)
  exact ⟨b.vs, hl, hh, b.windowTimer, b.standstill⟩

theorem State.loopCount_moves (hC : C) (s : State) (forward : Bool) :
    Moves C L s (s.loopCount forward) := by
  unfold State.loopCount
  split
  · split
    · exact s.forwardCount_moves hC ‹_›
    · exact s.backwardCount_moves hC
  · exact .refl

theorem State.acquireLock_moves (hC : C) (s : State) : Moves C L s s.acquireLock :=
  ((s.modLoop_moves hC fun b => ⟨b.vs, b.windowLow, b.windowHigh, b.windowTimer, b.standstill⟩).trans
    (State.newlyReached_moves _ _ rfl)).trans (State.queueReport_moves _ _)

theorem State.confirmLock_moves (hC : C) (s : State) : Moves C L s s.confirmLock := by
  unfold State.confirmLock
  have m : Moves C L s (s.modLoop fun c => { c with travel := 0, missing := 0 }) :=
    s.modLoop_moves hC fun b => ⟨b.vs, b.windowLow, b.windowHigh, b.windowTimer, b.standstill⟩
  dsimp only
  split
  · exact (m.trans (State.modLoop_moves hC _ fun b =>
      ⟨b.vs, b.windowLow, b.windowHigh, b.windowTimer, b.standstill⟩)).trans (State.queueReport_moves _ _)
  · exact m

/-- A newly reached position leaves the Loop Tracker's counts. -/
theorem State.newlyReached_loop (s : State) (p : Nat) (h : s.locked = true) :
    (s.newlyReached p).loop = s.loop := by
  obtain ⟨u, w, e⟩ := s.newlyReached_planWork p h
  rw [e]
  exact w.loop

theorem State.correctForwardOne_locked (s : State) (h : s.locked = true) :
    s.correctForwardOne.locked = true := by
  have hl := s.stepForward_locked.trans h
  unfold State.correctForwardOne
  split
  · unfold State.locked
    rw [State.newlyReached_loop _ _ hl]
    exact hl
  · exact hl

theorem State.correctForward_moves (hC : C) (n : Nat) (s : State) (h : s.locked = true) :
    Moves C L s (State.correctForward n s) := by
  induction n generalizing s with
  | zero => exact .refl
  | succ n ih =>
    refine Relation.ReflTransGen.trans ?_ (ih _ (s.correctForwardOne_locked h))
    unfold State.correctForwardOne
    split
    · exact (s.stepForward_moves hC).trans (State.newlyReached_moves _ _ (s.stepForward_locked.trans h))
    · exact s.stepForward_moves hC

theorem State.testMarker_moves (hC : C) (s : State) (h : s.locked = true) :
    Moves C L s s.testMarker := by
  have hb : Moves C L s (s.correctBackward s.loop.S) := by
    unfold State.correctBackward
    split
    · exact s.lockLost_moves hC
    · exact s.modLoop_moves hC fun b => ⟨b.vs, b.windowLow, b.windowHigh, b.windowTimer, b.standstill⟩
  unfold State.testMarker
  dsimp only
  split
  · split
    · split
      · exact hb.trans (State.confirmLock_moves hC _)
      · exact hb
    · exact s.lockLost_moves hC
  · split
    · exact (State.correctForward_moves hC _ s h).trans (State.confirmLock_moves hC _)
    · exact s.lockLost_moves hC

/-! ### APPLY (R162) -/

theorem State.paces_moves (s : State) {f : Pace → Pace} (h : PaceMove s (f s.pace)) :
    Moves C L s (s.modPace f) := (Move.pace h).moves

/-- R8, R162: the loop unlocked for new geometry, its pace indices as they were. -/
theorem State.returnUnlocked_moves (hC : C) (s : State) :
    Moves C L s s.returnUnlocked ∧ s.returnUnlocked.loop.lock = .unlocked := by
  unfold State.returnUnlocked
  split
  · obtain ⟨u, m, hp, hl, e⟩ := s.lockLost_moves' (L := L) hC
    rw [e]
    refine ⟨m.trans (Relation.ReflTransGen.single ?_), hl⟩
    refine Move.pace (s := u) (f := fun p =>
      { p with lanes := ⟨{ p.lanes.l0 with index := s.pace.lanes.l0.index, hyst := 0, valid := false },
        { p.lanes.l1 with index := s.pace.lanes.l1.index, hyst := 0, valid := false }⟩ }) ?_
    intro l _ b
    rw [hp] at b
    cases l <;> exact ⟨b.index, Nat.zero_le _⟩
  · rename_i h
    exact ⟨.refl, by simpa [State.locked] using h⟩

theorem State.completeApply_moves (hC : C) (s : State) {a : Applying} (hb : s.busy = true)
    (ha : s.table.applying = some a) : Moves C L s (s.completeApply a) := by
  obtain ⟨m, hl⟩ := s.returnUnlocked_moves (L := L) hC
  have ht : s.returnUnlocked.table = s.table := by
    unfold State.returnUnlocked
    split
    · obtain ⟨u, w, e⟩ := s.lockLost_planWork
      rw [e]
      exact w.table
    · rfl
  unfold State.completeApply
  split
  · rename_i hv
    refine (m.tail (Move.commit ?_ hv hl)).trans (State.queueReport_moves _ _)
    simpa [State.busy, ht] using hb
  · exact (Move.failApply hb ha).moves.trans (State.queueReport_moves _ _)

end Sys2Proof.Machine
end


section
/-! SUPPORT. Every command is a sequence of changes (`exec_moves`), command by command in the order of the table. -/

namespace Sys2Proof.Machine

variable {C L : Prop}

/-- An outcome is the next state, reached by changes. -/
def MovesTo (C L : Prop) (s : State) (o : Host.Outcome State Fault Refusal) : Prop :=
  ∃ t, o = .next t ∧ Moves C L s t

/-- R151, R166: an event is its changes, or, while RSTN is asserted, none. -/
theorem State.unlessHeld_movesTo {s u : State} {event : State → State} (h : Moves C L s u)
    (k : Moves C L u (event u)) : MovesTo C L s (u.unlessHeld event) := by
  refine ⟨_, rfl, ?_⟩
  split
  · exact h
  · exact h.trans k

/-! ### Loop commands -/

theorem execEncoderCount_moves (hC : C) (forward chk lvl : Bool) (s : State) :
    MovesTo C L s (execEncoderCount forward chk lvl s) :=
  State.unlessHeld_movesTo .refl ((((Move.pins s _).moves.trans (State.countWindow_moves _ _)).trans
    (State.loopCount_moves hC _ _)).trans (State.settle_moves _ _ _ _))

theorem execMarkerPulse_moves (hC : C) (chk lvl : Bool) (s : State) :
    MovesTo C L s (execMarkerPulse chk lvl s) := by
  have hs : Moves C L s (s.sample chk lvl) := (Move.pins s _).moves
  refine State.unlessHeld_movesTo .refl ?_
  dsimp only
  refine Relation.ReflTransGen.trans ?_ (State.settle_moves _ _ _ _)
  split
  · exact hs.trans (State.testMarker_moves hC _ ‹_›)
  · split
    · exact hs.trans (State.acquireLock_moves hC _)
    · exact hs

theorem execMarkerMissing_moves (hC : C) (s : State) : MovesTo C L s (execMarkerMissing s) := by
  refine State.unlessHeld_movesTo .refl ?_
  split
  · exact ((State.modLoop_moves hC s fun b =>
      ⟨b.vs, b.windowLow, b.windowHigh, b.windowTimer, b.standstill⟩).trans
        (State.declareMissing_moves hC _)).trans (State.settle_moves _ _ _ _)
  · exact .refl

/-- R13: vs formed, a new window begun. -/
theorem State.formSpeed_moves (s : State) : Moves C L s s.formSpeed := by
  unfold State.formSpeed
  have m : Move C L s (s.modLoop fun c => { c with
      vs := windowSpeed c.windowCount
      overspeed := decide ((Config.vsMax : Int) < s.loop.windowCount), windowCount := 0
      windowTimer := 0 }) :=
    .window (fun b => ⟨Nat.min_le_right _ _, by simp, by simp, Nat.zero_le _, b.standstill⟩)
      ⟨rfl, rfl, rfl, rfl, rfl, rfl⟩
  dsimp only
  split
  · exact m.moves.trans (State.queueReport_moves _ _)
  · exact m.moves

/-- R14: standstill count and motion state formed. -/
theorem State.formMotion_moves (s : State) : Moves C L s s.formMotion := by
  unfold State.formMotion
  dsimp only
  split
  · split
    · exact (Move.window (fun b => ⟨b.vs, b.windowLow, b.windowHigh, b.windowTimer, Nat.min_le_right _ _⟩)
        ⟨rfl, rfl, rfl, rfl, rfl, rfl⟩).moves.trans (State.queueReport_moves _ _)
    · exact (Move.window (fun b => ⟨b.vs, b.windowLow, b.windowHigh, b.windowTimer, Nat.min_le_right _ _⟩)
        ⟨rfl, rfl, rfl, rfl, rfl, rfl⟩).moves
  · split
    · exact (Move.window (fun b => ⟨b.vs, b.windowLow, b.windowHigh, b.windowTimer, Nat.zero_le _⟩)
        ⟨rfl, rfl, rfl, rfl, rfl, rfl⟩).moves.trans (State.queueReport_moves _ _)
    · exact (Move.window (fun b => ⟨b.vs, b.windowLow, b.windowHigh, b.windowTimer, Nat.zero_le _⟩)
        ⟨rfl, rfl, rfl, rfl, rfl, rfl⟩).moves

/-- R139: a target of at most 6000 ms calls an entry of the cadence table. -/
theorem calledIndex_le {t : Nat} (h : t ≤ 6000) : calledIndex t ≤ 15 := by
  have : calledIndex t < Config.cadence.length :=
    List.findIdx_lt_length_of_exists ⟨6000, by decide, by simpa using h⟩
  exact Nat.lt_succ_iff.1 this

/-- R138: no target above 6000 ms. -/
theorem State.paceTarget_le {s : State} {t : Nat} (h : s.paceTarget = some t) : t ≤ 6000 := by
  unfold State.paceTarget targetOf at h
  split at h
  · cases h
  · split at h
    · cases h
    · dsimp only at h
      split at h
      · cases h
      · cases h; omega

theorem PaceLane.Bounded.window {p : PaceLane} {target : Option Nat} {minEntry : Nat}
    (h : p.Bounded) (hm : minEntry ≤ 15) (ht : ∀ t, target = some t → t ≤ 6000) :
    (p.window target minEntry).pulseDue.Bounded := by
  have hw : (p.window target minEntry).Bounded := by
    cases target with
    | none => exact ⟨h.index, Nat.zero_le _⟩
    | some t =>
      have hc : max (calledIndex t) minEntry ≤ 15 := max_le (calledIndex_le (ht t rfl)) hm
      have hh := h.hyst
      simp only [PaceLane.window, PaceLane.call]
      split
      · exact ⟨hc, Nat.zero_le _⟩
      · split
        · exact ⟨hc, Nat.zero_le _⟩
        · exact ⟨h.index, by dsimp only; omega⟩
  unfold PaceLane.pulseDue
  split
  · exact ⟨hw.index, hw.hyst⟩
  · exact hw

theorem State.paceLaneWindow_moves (s : State) {target : Option Nat} (l : Lane)
    (ht : ∀ t, target = some t → t ≤ 6000) : Moves C L s (s.paceLaneWindow target l) := by
  unfold State.paceLaneWindow
  split
  · exact s.modPaceLane_moves l fun he b => b.window he ht
  · exact .refl

/-- R138 to R141: the Pace Generator's part of a window end. -/
theorem State.paceTake_moves (s : State) : Moves C L s s.paceTake := by
  have ht : ∀ t, s.paceTarget = some t → t ≤ 6000 := fun t => State.paceTarget_le
  have m : Moves C L s (((s.modPace fun p => { p with target := s.paceTarget }).paceLaneWindow s.paceTarget
      .l0).paceLaneWindow s.paceTarget .l1) :=
    ((s.paces_moves fun _ _ b => b).trans (State.paceLaneWindow_moves _ .l0 ht)).trans
      (State.paceLaneWindow_moves _ .l1 ht)
  unfold State.paceTake State.paceWindow
  dsimp only
  split
  · exact (m.trans (State.paceRestart_moves _ .l0)).trans (State.paceRestart_moves _ .l1)
  · exact m

theorem State.windowBlocks_moves (s : State) : Moves C L s s.windowBlocks := by
  obtain ⟨n, e | e⟩ := s.windowBlocks_cases <;> rw [e]
  · exact (s.plannerWindow_planWork.moves.trans (State.paceTake_moves _)).trans
      (State.setFreeCount_planWork _ n).moves
  · exact (s.paceTake_moves.trans (State.plannerWindow_planWork _).moves).trans
      (State.setFreeCount_planWork _ n).moves

theorem execWindowEnd_moves (s : State) : MovesTo C L s (execWindowEnd s) :=
  State.unlessHeld_movesTo .refl (((s.formSpeed_moves.trans (State.formMotion_moves _)).trans
    (State.windowBlocks_moves _)).trans (State.finish_moves _ _ _))

/-! ### Line commands -/

theorem idleRunAfter_le (bits : List Bool) : idleRunAfter bits ≤ 24 := Nat.min_le_left _ _

theorem runAfterStop_le (bytes : List Byte) (low : Bool) : runAfterStop bytes low ≤ 24 := by
  unfold runAfterStop
  split
  · decide
  · exact idleRunAfter_le _

theorem State.endFrame_moves (s : State) (bytes : List Byte) (stops : StopBits) :
    Moves C L s (s.endFrame bytes stops) :=
  (Move.line ⟨rfl, fun _ b =>
    ⟨Nat.zero_le _, b.attempt, b.backoff, runAfterStop_le _ _, b.holdCount⟩⟩).moves

theorem State.rejectFrame_moves (s : State) (why : FrameReject) (code : Nat) :
    Moves C L s (s.rejectFrame why code) := by
  have m : Moves C L s (s.queueReport (.frameRejected why code)) := s.queueReport_moves _
  unfold State.rejectFrame
  dsimp only
  have hd : Moves C L s (if s.mapInUse then (s.queueReport (.frameRejected why code)).setDoubtWindow
      else s.queueReport (.frameRejected why code)) := by
    split
    · exact m.tail (Move.doubt (.inr (Nat.min_le_right _ _)))
    · exact m
  cases why with
  | crc | tray | location => exact hd
  | length | twin => exact m

theorem State.receiveFrame_moves (s : State) (f : FrameData) : Moves C L s (s.receiveFrame f) := by
  unfold State.receiveFrame
  split
  · exact s.rejectFrame_moves _ _
  · exact (s.applyFrame_planWork f).moves

theorem State.hear_moves (s : State) (f : FrameData) : MovesTo C L s (s.hear f) := by
  refine State.unlessHeld_movesTo .refl ?_
  have m : Moves C L s (s.endFrame (frameBytes f) .good) := s.endFrame_moves _ _
  dsimp only
  split
  · split
    · exact (m.trans (State.rejectFrame_moves _ _ _)).trans (State.settle_moves _ _ _ _)
    · exact (m.trans (State.receiveFrame_moves _ _)).trans (State.settle_moves _ _ _ _)
  · exact .refl

theorem execReceivedFrameRejected_moves (bytes : List Byte) (stops : StopBits) (tenth : Bool) (s : State) :
    MovesTo C L s (execReceivedFrameRejected bytes stops tenth s) := by
  refine State.unlessHeld_movesTo .refl ?_
  have m : Moves C L s (s.endFrame bytes stops) := s.endFrame_moves _ _
  dsimp only
  split
  · split
    · refine Relation.ReflTransGen.trans ?_ (State.settle_moves _ _ _ _)
      refine Relation.ReflTransGen.trans ?_ (State.rejectFrame_moves _ _ _)
      exact (Move.line ⟨rfl, fun _ b =>
        ⟨Nat.zero_le _, b.attempt, b.backoff, Nat.zero_le _, b.holdCount⟩⟩).moves
    · split
      · exact (m.trans (State.rejectFrame_moves _ _ _)).trans (State.settle_moves _ _ _ _)
      · exact (m.trans (State.receiveFrame_moves _ _)).trans (State.settle_moves _ _ _ _)
  · exact .refl

theorem State.dropEntry_moves (s : State) (i : Nat) : Moves C L s (s.dropEntry i) :=
  (s.dropEntry_planWork i).moves

theorem State.withdrawHead_moves (s : State) (e : TxEntry) : Moves C L s (s.withdrawHead e) := by
  unfold State.withdrawHead
  split
  · exact (s.dropEntry_moves 0).trans (State.endRef_planWork _ _ _).moves
  · exact s.dropEntry_moves 0

theorem execFrameAttemptStart_moves (s : State) : MovesTo C L s (execFrameAttemptStart s) := by
  refine State.unlessHeld_movesTo .refl ?_
  split
  · split
    · split
      · have m : Move C L s (s.modLine LineIf.sawIdle) :=
          .line ⟨rfl, fun _ b => ⟨b.rxBuf, b.attempt, b.backoff, le_rfl, Nat.zero_le _⟩⟩
        exact (m.moves.trans (State.withdrawHead_moves _ _)).trans (State.settle_moves _ _ _ _)
      · refine (Move.queue (by simp)).moves.tail (Move.line ⟨rfl, fun _ b => ?_⟩)
        exact ⟨Nat.zero_le _, b.attempt, b.backoff, Nat.zero_le _, Nat.zero_le _⟩
    · exact .refl
  · exact .refl

theorem State.abandonHead_moves (s : State) (e : TxEntry) : Moves C L s (s.abandonHead e) := by
  unfold State.abandonHead
  split
  · exact s.withdrawHead_moves e
  · exact (s.dropEntry_moves 0).trans (State.reportDropped_planWork _ _).moves

theorem State.failAttempt_moves (s : State) (e : TxEntry) : Moves C L s (s.failAttempt e) := by
  rcases s.failAttempt_cases e with ⟨hn, h⟩ | ⟨-, h⟩ <;> rw [h]
  · refine (Move.queue (by simp)).moves.tail (Move.line ⟨rfl, fun hb b => ?_⟩)
    have hb : s.stationNumber ≤ 31 := hb
    exact ⟨b.rxBuf, by dsimp only; omega, by dsimp only; omega, b.idleRun, b.holdCount⟩
  · exact s.abandonHead_moves e

/-- A composed frame is at most nine bytes long (3.3). -/
theorem frameBytes_length_le (f : FrameData) : (frameBytes f).length ≤ 9 := by
  obtain ⟨kind, _⟩ := f
  cases kind <;> simp [frameBytes, frameBody, crcBytes]

theorem State.readBack_moves (s : State) (e : TxEntry) (bit : Nat) (sent : Bool) :
    Moves C L s (s.readBack e bit sent) := by
  rw [State.readBack_eq]
  refine (Move.line ?_).moves
  cases sent
  · exact ⟨rfl, fun _ b => ⟨Nat.zero_le _, b.attempt, b.backoff, idleRunAfter_le _, b.holdCount⟩⟩
  · refine ⟨rfl, fun _ b => ⟨?_, b.attempt, b.backoff, Nat.zero_le _, b.holdCount⟩⟩
    exact (List.length_take_le' _ _).trans (frameBytes_length_le _)

theorem execAttemptCollision_moves (bit : Nat) (s : State) : MovesTo C L s (execAttemptCollision bit s) := by
  refine State.unlessHeld_movesTo .refl ?_
  split
  · split
    · split
      · rename_i e _ _ _ sent _
        refine ((s.readBack_moves e bit sent).trans ?_).trans (State.settle_moves _ _ _ _)
        rcases (s.readBack e bit sent).endAttempt_cases e sent with ⟨-, -, h⟩ | ⟨-, h⟩ <;> rw [h]
        · exact State.dropEntry_moves _ 0
        · exact State.failAttempt_moves _ e
      · exact .refl
    · exact .refl
  · exact .refl

theorem execBackoffExpired_moves (s : State) : MovesTo C L s (execBackoffExpired s) := by
  refine State.unlessHeld_movesTo .refl ?_
  split
  · split
    · exact (Move.line ⟨rfl, fun _ b => ⟨b.rxBuf, b.attempt, Nat.zero_le _, b.idleRun, b.holdCount⟩⟩).moves
    · exact .refl
  · exact .refl

theorem execLineHeld_moves (s : State) : MovesTo C L s (execLineHeld s) := by
  refine State.unlessHeld_movesTo .refl ?_
  split
  · split
    · have m : Move C L s (s.modLine fun c => { c with holdCount := 0 }) :=
        .line ⟨rfl, fun _ b => ⟨b.rxBuf, b.attempt, b.backoff, b.idleRun, Nat.zero_le _⟩⟩
      exact (m.moves.trans (State.failAttempt_moves _ _)).trans (State.settle_moves _ _ _ _)
    · exact .refl
  · exact .refl

/-- R31: an own frame's effect on the plans is plan work. -/
theorem State.ownFrame_planWork (s : State) (e : TxEntry) : PlanWork s (s.ownFrame e) := by
  unfold State.ownFrame
  split
  · split
    · exact s.mapPlan_planWork _ _ _
    · exact .refl s
  · exact .refl s

theorem execFrameTxComplete_moves (s : State) : MovesTo C L s (execFrameTxComplete s) := by
  refine State.unlessHeld_movesTo .refl ?_
  split
  · split
    · refine Relation.ReflTransGen.trans ?_ (State.settle_moves _ _ _ _)
      rename_i e _ _
      have m : Moves C L s ((s.dropEntry 0).modLine fun c => { c with
          idleRun := idleRunAfter (frameBits (s.frameOf e)), rx := .hunting, rxBuf := []
          rxFault := false }) :=
        (s.dropEntry_moves 0).tail (Move.line ⟨rfl, fun _ b =>
          ⟨Nat.zero_le _, b.attempt, b.backoff, idleRunAfter_le _, b.holdCount⟩⟩)
      unfold State.completeHead
      dsimp only
      split
      · exact m.trans (State.placeFrame_planWork _ _ _ _).moves
      · exact m.trans (State.ownFrame_planWork _ _).moves
    · exact .refl
  · exact .refl

theorem execEntryAbandoned_moves (s : State) : MovesTo C L s (execEntryAbandoned s) := by
  refine State.unlessHeld_movesTo .refl ?_
  split
  · exact (s.abandonHead_moves _).trans (State.settle_moves _ _ _ _)
  · exact .refl

end Sys2Proof.Machine
end


section
/-! SUPPORT. The lane and port commands as changes, `exec_moves`, and the 1 ms tick; PROOFS of O5, O7 and O8. -/

namespace Sys2Proof.Machine

variable {C L : Prop}

/-! ### Lane commands -/

/-- Off the line a lane that is not cleared may take something up only where lanes are free to. -/
def State.LanesHeld (L : Prop) (s : State) : Prop :=
  ∀ l, (s.lane l).cleared = false → L ∨ s.mapInUse = true

theorem State.LanesHeld.of_ne {s : State} (h : s.LanesHeld L) {l : Lane} (hc : (s.lane l).cleared ≠ true) :
    L ∨ s.mapInUse = true := h l (eq_false_of_ne_true hc)

theorem LaneCtl.not_cleared_of_mem {c : LaneCtl} {r : Parcel} (h : r ∈ c.parcels) : c.cleared ≠ true := by
  intro hc
  obtain ⟨-, hp, -⟩ := (LaneCtl.cleared_iff _).1 hc
  rw [hp] at h
  cases h

/-- A block of a lane that holds records, or while the map is in use, is a change. -/
theorem State.takeBlock_moves (s : State) (l : Lane) (reason : BlockReason) (tags rejected : List Tag)
    (h : (s.lane l).parcels ≠ [] ∨ s.mapInUse = true) :
    Moves C L s (s.takeBlock l reason tags rejected) :=
  (s.takeBlock_planWork l reason tags rejected h).moves

theorem State.takesEntry_online {s : State} {l : Lane} (h : s.takesEntry l = true) : s.online = true := by
  simp only [State.takesEntry, Bool.and_eq_true] at h
  exact h.1

/-- R85, R86: an entry eye edge taken while the station is ONLINE. -/
theorem State.entryEdge_moves (s : State) (l : Lane) (h : s.mapInUse = true) :
    Moves C L s (s.entryEdge l) := by
  have tag : Move C L s (s.modLane l LaneCtl.takeTag) :=
    .lane (.of_counts le_rfl fun n b => ⟨b.measure, b.gapCount, b.gapTest, b.buttonFilter⟩) (.inr (.inl h))
  have create : s.hasRoom l = true → Move C L s (s.modLane l LaneCtl.create) := fun hr =>
    .lane ⟨.inr ⟨hr, by simp [LaneCtl.create]⟩, fun _ b =>
      ⟨b.measure, b.gapCount, b.gapTest, b.buttonFilter⟩⟩ (.inr (.inl h))
  unfold State.entryEdge
  split
  · unfold State.touchingBlock
    dsimp only
    refine Relation.ReflTransGen.trans ?_ (State.takeBlock_moves _ _ _ _ _ (.inr h))
    cases hr : s.hasRoom l
    · exact tag.moves
    · exact (create hr).moves
  · split
    · rename_i hr
      exact (Move.lane ⟨.inr ⟨hr, by simp [LaneCtl.create]⟩, fun _ b =>
        ⟨Nat.zero_le _, b.gapCount, .inl rfl, b.buttonFilter⟩⟩ (.inr (.inl h))).moves
    · exact tag.moves.trans (State.takeBlock_moves _ _ _ _ _ (.inr h))

theorem execEntryEyeBlocked_moves (l : Lane) (s : State) : MovesTo C L s (execEntryEyeBlocked l s) := by
  refine State.unlessHeld_movesTo (event := fun u => if s.pins.entryEye.get l then u
    else if u.takesEntry l then (u.entryEdge l).settle u false false else u) (Move.pins s _).moves ?_
  split
  · exact .refl
  · split
    · exact (State.entryEdge_moves _ l (State.mapInUse_of_online (State.takesEntry_online ‹_›))).trans
        (State.settle_moves _ _ _ _)
    · exact .refl

theorem LaneCtl.mem_of_measuring {c : LaneCtl} {r : Parcel} (h : c.measuring? = some r) : r ∈ c.parcels :=
  List.mem_of_find?_eq_some h

theorem LaneCtl.giveScan_bounded {c : LaneCtl} {n : Nat} (h : c.Bounded n) (t : Tag) (sc : Scan) :
    (c.giveScan t sc).Bounded n :=
  ⟨h.measure, h.gapCount, h.gapTest, h.buttonFilter⟩

theorem LaneCtl.giveScan_length (c : LaneCtl) (t : Tag) (sc : Scan) :
    (c.giveScan t sc).parcels.length = c.parcels.length := by
  simp [LaneCtl.giveScan, LaneCtl.modParcel]

theorem LaneCtl.offerEarly_cases (c : LaneCtl) :
    c.offerEarly = c ∨ ∃ t sc, c.offerEarly = { c.giveScan t sc with early := none } := by
  unfold LaneCtl.offerEarly
  split
  · exact .inr ⟨_, _, rfl⟩
  · exact .inl rfl

/-- A change of one lane that may take something up off the line, where that lane was not cleared at first. -/
theorem State.modLane_moves {s : State} {l : Lane} {f : LaneCtl → LaneCtl}
    (h : LaneMove s l (f (s.lane l))) (hu : L ∨ s.mapInUse = true) : Moves C L s (s.modLane l f) :=
  (Move.lane h (hu.imp_right .inl)).moves

theorem State.giveScan_moves (s : State) (l : Lane) (t : Tag) (sc : Scan) (hu : L ∨ s.mapInUse = true) :
    Moves C L s (s.modLane l fun c => c.giveScan t sc) :=
  State.modLane_moves (.of_counts (LaneCtl.giveScan_length _ _ _).le
    fun _ b => LaneCtl.giveScan_bounded b t sc) hu

theorem State.holdEarly_moves (s : State) (l : Lane) (sc : Scan) (hu : L ∨ s.mapInUse = true) :
    Moves C L s (s.modLane l fun c => { c with early := some sc }) :=
  State.modLane_moves (.of_counts le_rfl fun _ b => ⟨b.measure, b.gapCount, b.gapTest, b.buttonFilter⟩) hu

/-- R112: the scan of a debris record returned. -/
theorem State.returnScan_moves (s : State) (l : Lane) (sc : Scan) (hu : L ∨ s.mapInUse = true) :
    Moves C L s (s.returnScan l sc) := by
  unfold State.returnScan
  dsimp only
  split
  · exact s.giveScan_moves l _ sc hu
  · split
    · exact (s.holdEarly_moves l sc hu).trans (State.queueReport_moves _ _)
    · exact s.holdEarly_moves l sc hu

/-- R87: the end of a measurement. -/
theorem State.endMeasure_moves (s : State) (l : Lane) {r : Parcel} (hr : r ∈ (s.lane l).parcels)
    (hu : L ∨ s.mapInUse = true) : Moves C L s (s.endMeasure l r) := by
  unfold State.endMeasure
  dsimp only
  split
  · unfold State.debris
    have m : Moves C L s ((s.modLane l fun c => c.dropParcel r.tag).queueReport
        (.rejected l r.tag .debris)) :=
      (State.modLane_moves (.of_counts (List.length_filter_le _ _) fun _ b =>
        ⟨b.measure, b.gapCount, b.gapTest, b.buttonFilter⟩) hu).trans (State.queueReport_moves _ _)
    dsimp only
    split
    · exact m.trans (State.returnScan_moves _ l _ hu)
    · exact m
  · split
    · refine State.modLane_moves ?_ hu
      generalize hd : ({ (s.lane l).modParcel r.tag _ with gapCount := 0, gapTest := _ } : LaneCtl) = d
      have hlen : d.parcels.length = (s.lane l).parcels.length := by
        rw [← hd]; simp [LaneCtl.modParcel]
      have hb : ∀ b : (s.lane l).Bounded (s.cfgMinGap l), d.Bounded (s.cfgMinGap l) := by
        intro b
        rw [← hd]
        refine ⟨b.measure, Nat.zero_le _, ?_, b.buttonFilter⟩
        dsimp only
        split
        · exact .inl rfl
        · exact .inr (Nat.pos_of_ne_zero ‹_›)
      rcases d.offerEarly_cases with e | ⟨t, sc, e⟩ <;> rw [e]
      · exact ⟨.inl hlen.le, fun _ b => hb b⟩
      · refine ⟨.inl ((LaneCtl.giveScan_length _ _ _).trans hlen).le, fun _ b => ?_⟩
        have k := LaneCtl.giveScan_bounded (hb b) t sc
        exact ⟨k.measure, k.gapCount, k.gapTest, k.buttonFilter⟩
    · exact State.takeBlock_moves _ _ _ _ _ (.inl (List.ne_nil_of_mem hr))

theorem execEntryEyeClear_moves (l : Lane) (s : State) (hL : s.LanesHeld L) :
    MovesTo C L s (execEntryEyeClear l s) := by
  refine State.unlessHeld_movesTo (u := s.setEntryEye l false) (Move.pins s _).moves ?_
  split
  · rename_i r hr
    have hm := LaneCtl.mem_of_measuring hr
    exact (State.endMeasure_moves _ l hm (hL.of_ne (LaneCtl.not_cleared_of_mem hm))).trans
      (State.settle_moves _ _ _ _)
  · exact .refl

/-- R87: a count of the gap test leaves the measurement. -/
theorem LaneCtl.countGap_eq (c : LaneCtl) (n : Nat) :
    c.countGap n = { c with
      gapCount := (c.countGap n).gapCount, gapTest := (c.countGap n).gapTest } := by
  unfold LaneCtl.countGap
  split <;> rfl

theorem LaneCtl.countMeasure_eq (c : LaneCtl) :
    c.countMeasure = { c with measure := if c.measuring?.isSome then c.measure + 1 else c.measure } := by
  unfold LaneCtl.countMeasure
  split <;> simp_all

theorem LaneCtl.countGap_bounded {c : LaneCtl} {n : Nat} (hn : n ≤ 3000) (b : c.Bounded n) :
    (c.countGap n).Bounded n := by
  unfold LaneCtl.countGap
  split
  · rename_i hs
    have hlt : c.gapCount < n := b.gapTest.resolve_left (Option.isSome_iff_ne_none.1 hs)
    refine ⟨b.measure, by dsimp only; omega, ?_, b.buttonFilter⟩
    dsimp only
    split
    · exact .inl rfl
    · exact .inr (by omega)
  · exact b

/-- A count of the entry belt short of the measurement limit. -/
theorem LaneCtl.counted_bounded {c : LaneCtl} {n : Nat} (hn : n ≤ 3000) (b : c.Bounded n)
    (h : (c.countGap n).countMeasure.atLimit = false) : (c.countGap n).countMeasure.Bounded n := by
  have k := LaneCtl.countGap_bounded hn b
  generalize c.countGap n = d at h k ⊢
  unfold LaneCtl.countMeasure at h ⊢
  split at h
  · rename_i hs
    have hlt : ¬ 3000 ≤ d.measure + 1 := by
      intro hle
      have : LaneCtl.atLimit { d with measure := d.measure + 1 } = true :=
        Bool.and_eq_true_iff.2 ⟨hs, decide_eq_true hle⟩
      rw [this] at h
      cases h
    rw [if_pos hs]
    exact ⟨(by omega : d.measure + 1 ≤ 3000), k.gapCount, k.gapTest, k.buttonFilter⟩
  · rw [if_neg ‹_›]
    exact k

theorem LaneCtl.counted_parcels (c : LaneCtl) (n : Nat) :
    (c.countGap n).countMeasure.parcels = c.parcels := by
  rw [LaneCtl.countMeasure_eq, LaneCtl.countGap_eq]

theorem State.modLane_modLane_self (s : State) (l : Lane) (f g : LaneCtl → LaneCtl) :
    (s.modLane l f).modLane l g = s.modLane l fun c => g (f c) := by
  cases l <;> rfl

/-- R88: the count that reaches the measurement limit, and the block it ends in. -/
theorem State.countedLimit_moves (s : State) (l : Lane) (hm : s.mapInUse = true)
    (ha : ((s.lane l).countGap (s.cfgMinGap l)).countMeasure.atLimit = true) :
    Moves C L s ((s.modLane l fun c => (c.countGap (s.cfgMinGap l)).countMeasure).measureLimit l) := by
  obtain ⟨r, hr⟩ := Option.isSome_iff_exists.1 (Bool.and_eq_true_iff.1 ha).1
  unfold State.measureLimit
  rw [State.modLane_lane_self, hr]
  dsimp only
  rw [State.modLane_modLane_self]
  refine Relation.ReflTransGen.trans (State.modLane_moves ⟨.inl ?_, fun hn b => ?_⟩ (.inr hm))
    (State.takeBlock_moves _ _ _ _ _ (.inr hm))
  · exact (congrArg List.length (LaneCtl.counted_parcels _ _)).le
  · have k := LaneCtl.countGap_bounded hn b
    rw [LaneCtl.countMeasure_eq]
    exact ⟨le_rfl, k.gapCount, k.gapTest, k.buttonFilter⟩

theorem execBeltEncoderCount_moves (l : Lane) (s : State) : MovesTo C L s (execBeltEncoderCount l s) := by
  refine State.unlessHeld_movesTo (u := s) .refl ?_
  split
  · rename_i hr
    have hm : s.mapInUse = true := by
      simp only [State.entryBeltRuns, Bool.and_eq_true] at hr
      exact State.mapInUse_of_online hr.2
    dsimp only
    rw [State.modLane_lane_self]
    cases ha : ((s.lane l).countGap (s.cfgMinGap l)).countMeasure.atLimit with
    | true => exact (s.countedLimit_moves l hm ha).trans (State.settle_moves _ _ _ _)
    | false =>
      exact State.modLane_moves (f := fun c => (c.countGap (s.cfgMinGap l)).countMeasure)
        ⟨.inl (congrArg List.length (LaneCtl.counted_parcels _ _)).le,
        fun hn b => LaneCtl.counted_bounded hn b ha⟩ (.inr hm)
  · exact .refl

theorem execGapCountReached_moves (l : Lane) (s : State) : MovesTo C L s (execGapCountReached l s) := by
  refine State.unlessHeld_movesTo .refl ?_
  split
  · refine (Move.lane ⟨.inl le_rfl, fun hn b => ⟨b.measure, hn, .inl rfl, b.buttonFilter⟩⟩
      (.inr (.inr fun hc => ?_))).moves
    obtain ⟨hs, hp, hl, ht, hf, -, he⟩ := (LaneCtl.cleared_iff _).1 hc
    exact (LaneCtl.cleared_iff _).2 ⟨hs, hp, hl, ht, hf, rfl, he⟩
  · exact .refl

theorem State.measureLimit_moves (s : State) (l : Lane) (hL : s.LanesHeld L) :
    Moves C L s (s.measureLimit l) := by
  unfold State.measureLimit
  split
  · rename_i r hr
    have hm := LaneCtl.mem_of_measuring hr
    refine (State.modLane_moves (.of_counts le_rfl fun _ b => ⟨le_rfl, b.gapCount, b.gapTest, b.buttonFilter⟩)
      (hL.of_ne (LaneCtl.not_cleared_of_mem hm))).trans (State.takeBlock_moves _ _ _ _ _ (.inl ?_))
    rw [State.modLane_lane_self]
    exact List.ne_nil_of_mem hm
  · exact .refl

theorem execHoldEyeBlocked_moves (l : Lane) (s : State) : MovesTo C L s (execHoldEyeBlocked l s) := by
  refine State.unlessHeld_movesTo .refl ?_
  split
  · split
    · refine Relation.ReflTransGen.trans (Move.lane ?_ (.inr (.inr fun hc => ?_))).moves
        (State.settle_moves _ _ _ _)
      · exact .of_counts (by simp [LaneCtl.modParcel]) fun _ b =>
          ⟨b.measure, b.gapCount, b.gapTest, b.buttonFilter⟩
      · obtain ⟨-, -, -, -, hf, -⟩ := (LaneCtl.cleared_iff _).1 hc
        simp_all
    · exact .refl
  · exact .refl

theorem execLaunchEyeBlocked_moves (l : Lane) (s : State) : MovesTo C L s (execLaunchEyeBlocked l s) := by
  refine State.unlessHeld_movesTo .refl ?_
  split
  · refine Relation.ReflTransGen.trans (Move.lane ?_ (.inr (.inr fun hc => ?_))).moves
      (State.settle_moves _ _ _ _)
    · exact .of_counts (by simp) fun _ b => ⟨b.measure, b.gapCount, b.gapTest, b.buttonFilter⟩
    · obtain ⟨-, -, -, ht, -⟩ := (LaneCtl.cleared_iff _).1 hc
      simp_all
  · exact .refl

theorem LaneCtl.discardMeasure_bounded {c : LaneCtl} {n : Nat} (b : c.Bounded n) :
    c.discardMeasure.Bounded n := by
  unfold LaneCtl.discardMeasure
  split
  · exact ⟨Nat.zero_le _, b.gapCount, .inl rfl, b.buttonFilter⟩
  · exact ⟨b.measure, b.gapCount, .inl rfl, b.buttonFilter⟩

theorem LaneCtl.discardMeasure_length_le (c : LaneCtl) :
    c.discardMeasure.parcels.length ≤ c.parcels.length := by
  unfold LaneCtl.discardMeasure
  split
  · exact List.length_filter_le _ _
  · exact le_rfl

/-- R97, R102: the end of every plan of a lane is plan work. -/
theorem State.endLanePlans_planWork (s : State) (l : Lane) : PlanWork s (s.endLanePlans l) :=
  (s.afterOrder_planWork _).trans (PlanWork.foldl (fun u sl => by
    split
    · exact u.endPlan_planWork _ _ _
    · exact .refl u) _ _)

/-- R102: a lane that was not cleared enters FAULT. -/
theorem State.enterFault_moves (s : State) (l : Lane) (reason : LaneReason) (hu : L ∨ s.mapInUse = true) :
    Moves C L s (s.enterFault l reason) := by
  unfold State.enterFault
  have m : Moves C L s (s.modLane l LaneCtl.haltAll) := by
    refine State.modLane_moves (.of_counts (LaneCtl.discardMeasure_length_le _) fun n b => ?_) hu
    have k := LaneCtl.discardMeasure_bounded b
    exact ⟨k.measure, k.gapCount, k.gapTest, k.buttonFilter⟩
  have w := (s.modLane l LaneCtl.haltAll).endLanePlans_planWork l
  refine (m.trans w.moves).trans (State.enterLane_moves _ _ _ _ (hu.imp_right fun h => .inl ?_))
  exact w.mapInUse.trans h

theorem LaneCtl.not_cleared_of_transfer {c : LaneCtl} (h : c.transfer.isSome = true) : c.cleared ≠ true := by
  intro hc
  obtain ⟨-, -, -, ht, -⟩ := (LaneCtl.cleared_iff _).1 hc
  simp [ht] at h

theorem LaneCtl.not_cleared_of_launchRuns {c : LaneCtl} (h : c.launchRuns = true) : c.cleared ≠ true := by
  intro hc
  obtain ⟨-, -, hl, -⟩ := (LaneCtl.cleared_iff _).1 hc
  simp [LaneCtl.launchRuns, hl] at h

theorem execTransferTimeout_moves (l : Lane) (s : State) (hL : s.LanesHeld L) :
    MovesTo C L s (execTransferTimeout l s) := by
  refine State.unlessHeld_movesTo .refl ?_
  split
  · exact (State.enterFault_moves _ _ _ (hL.of_ne (LaneCtl.not_cleared_of_transfer ‹_›))).trans
      (State.settle_moves _ _ _ _)
  · exact .refl

theorem execMergeTimeout_moves (l : Lane) (s : State) (hL : s.LanesHeld L) :
    MovesTo C L s (execMergeTimeout l s) := by
  refine State.unlessHeld_movesTo .refl ?_
  split
  · exact (State.enterFault_moves _ _ _ (hL.of_ne (LaneCtl.not_cleared_of_launchRuns ‹_›))).trans
      (State.settle_moves _ _ _ _)
  · exact .refl

theorem execMergeEyeBlocked_moves (l : Lane) (s : State) : MovesTo C L s (execMergeEyeBlocked l s) := by
  refine State.unlessHeld_movesTo (Move.pins s _).moves ?_
  refine (Move.lane (.of_counts le_rfl fun _ b => ⟨b.measure, b.gapCount, b.gapTest, b.buttonFilter⟩)
    (.inr (.inr fun hc => ?_))).moves
  obtain ⟨hs, hp, hl, hrest⟩ := (LaneCtl.cleared_iff _).1 hc
  exact (LaneCtl.cleared_iff _).2 ⟨hs, hp, by simp [LaneCtl.seeMerge, hl], hrest⟩

/-- R94, R95, R136: a merge completion. -/
theorem State.mergeComplete_moves (s : State) (l : Lane) (e : Launch) (r : Parcel) :
    Moves C L s (s.mergeComplete l e r) := by
  have drop : ∀ u : State, Moves C L u (u.modLane l fun c => { c.dropParcel r.tag with launch := none }) := by
    intro u
    refine (Move.lane (.of_counts (List.length_filter_le _ _) fun _ b =>
      ⟨b.measure, b.gapCount, b.gapTest, b.buttonFilter⟩) (.inr (.inr fun hc => ?_))).moves
    obtain ⟨hs, hp, -, hrest⟩ := (LaneCtl.cleared_iff _).1 hc
    exact (LaneCtl.cleared_iff _).2 ⟨hs, by simp [LaneCtl.dropParcel, hp], rfl, hrest⟩
  unfold State.mergeComplete
  cases r.planSlot with
  | none => exact (s.queueReport_moves _).trans (drop _)
  | some sl =>
    exact ((((s.placeFrame_planWork _ _ _).trans (State.queueReport_planWork _ _)).trans
      (State.succeed_planWork _ l sl)).moves).trans (drop _)

theorem execMergeEyeClear_moves (l : Lane) (s : State) : MovesTo C L s (execMergeEyeClear l s) := by
  refine State.unlessHeld_movesTo (u := s.setMergeEye l false) (Move.pins s _).moves ?_
  split
  · split
    · exact (State.mergeComplete_moves _ _ _ _).trans (State.settle_moves _ _ _ _)
    · exact .refl
  · exact .refl

/-- The button's filter set. -/
theorem State.setFilter_moves (s : State) (l : Lane) {n : Nat} (h : n ≤ 20) :
    Moves C L s (s.modLane l fun c => { c with buttonFilter := n }) :=
  (Move.lane (.of_counts le_rfl fun _ b => ⟨b.measure, b.gapCount, b.gapTest, h⟩)
    (.inr (.inr fun hc => hc))).moves

/-- R101: what a press does. -/
theorem State.press_moves (s : State) (l : Lane) : Moves C L s (s.press l) := by
  unfold State.press
  split
  · rename_i hs
    exact s.enterLane_moves l _ _ (.inr (.inr (.inl (by simp [hs]))))
  · rename_i hs
    exact s.enterLane_moves l _ _ (.inr (.inr (.inl (by simp [hs]))))
  · rename_i hs
    split
    · refine Relation.ReflTransGen.trans (Move.lane (.of_counts (List.length_filter_le _ _) fun _ b =>
        ⟨b.measure, b.gapCount, .inl rfl, b.buttonFilter⟩) (.inr (.inr fun hc => ?_))).moves
        (State.enterLane_moves _ l _ _ (.inr (.inr (.inl ?_))))
      · obtain ⟨hst, -⟩ := (LaneCtl.cleared_iff _).1 hc
        simp [hs] at hst
      · simp [LaneCtl.deleteNamed, hs]
    · exact .refl
  · exact .refl
  · exact .refl

theorem execButtonPress_moves (l : Lane) (s : State) : MovesTo C L s (execButtonPress l s) := by
  refine State.unlessHeld_movesTo (Move.pins s _).moves ?_
  dsimp only
  have m := (s.modPins fun p => { p with button := p.button.set l true }).setFilter_moves
    (C := C) (L := L) l (Nat.zero_le 20)
  split
  · exact (m.trans (State.press_moves _ l)).trans (State.settle_moves _ _ _ _)
  · exact m

theorem execGoPulse_moves (l : Lane) (s : State) : MovesTo C L s (execGoPulse l s) := by
  refine State.unlessHeld_movesTo .refl ((s.modPaceLane_moves l fun _ b => ?_).trans (State.drive_moves _))
  unfold PaceLane.pulseDue
  split
  · exact ⟨b.index, b.hyst⟩
  · exact b

theorem execGoPulseEnd_moves (l : Lane) (s : State) : MovesTo C L s (execGoPulseEnd l s) := by
  refine State.unlessHeld_movesTo .refl ((s.modPaceLane_moves l fun _ b => ?_).trans (State.drive_moves _))
  split
  · exact ⟨b.index, b.hyst⟩
  · exact b

theorem execWaitBlink_moves (l : Lane) (s : State) : MovesTo C L s (execWaitBlink l s) := by
  refine State.unlessHeld_movesTo .refl ((s.modPaceLane_moves l fun _ b => ?_).trans (State.drive_moves _))
  split
  · exact ⟨b.index, b.hyst⟩
  · exact b

/-! ### Port commands -/

/-- A change of the inbound half that leaves its FIFO. -/
theorem State.modPort_moves (s : State) {f : LocalPort → LocalPort}
    (h : (f s.port).inbound.length ≤ s.port.inbound.length) : Moves C L s (s.modPort f) :=
  (Move.port fun k => h.trans k).moves

theorem State.setCommandError_moves (s : State) : Moves C L s s.setCommandError := s.modPort_moves le_rfl

theorem State.refuseMessage_moves (s : State) : Moves C L s s.refuseMessage :=
  s.setCommandError_moves.trans (State.drive_moves _)

theorem State.onLane_moves (s : State) (b : Byte) {act : Lane → State}
    (h : ∀ l, Moves C L s (act l)) : Moves C L s (s.onLane b act) := by
  unfold State.onLane
  split
  · exact h _
  · exact s.refuseMessage_moves

/-- R108, R109: a scan taken by its lane, STOPPED or not. -/
theorem State.takeScan_moves (s : State) (l : Lane) (sc : Scan) (hL : s.LanesHeld L) :
    Moves C L s (s.takeScan l sc) := by
  have place : (s.lane l).state ≠ .stopped → Moves C L s (s.placeScan l sc) := by
    intro hs
    have hu : L ∨ s.mapInUse = true := hL.of_ne fun hc => hs ((LaneCtl.cleared_iff _).1 hc).1
    unfold State.placeScan
    dsimp only
    split
    · exact s.queueReport_moves _
    · split
      · exact s.giveScan_moves l _ sc hu
      · exact s.holdEarly_moves l sc hu
  unfold State.takeScan
  split
  · exact place (by simp_all)
  · exact place (by simp_all)
  · exact place (by simp_all)
  · exact s.queueReport_moves _
  · exact s.queueReport_moves _

theorem State.stopPlans_planWork (s : State) (l : Lane) : PlanWork s (s.stopPlans l) :=
  (s.afterOrder_planWork _).trans (State.withdrawSlots_planWork _ _ _)

theorem LaneCtl.stopList_length_le (c : LaneCtl) : c.stopList.parcels.length ≤ c.parcels.length := by
  unfold LaneCtl.stopList
  dsimp only
  split
  · exact List.length_filter_le _ _
  · exact Nat.zero_le _

theorem LaneCtl.stopList_cleared {c : LaneCtl} (h : c.cleared = true) : c.stopList.cleared = true := by
  obtain ⟨hs, hp, hl, -⟩ := (LaneCtl.cleared_iff _).1 h
  have hr : c.launchRuns = false := by simp [LaneCtl.launchRuns, hl]
  refine (LaneCtl.cleared_iff _).2 ⟨hs, ?_, ?_, rfl, rfl, rfl, rfl⟩ <;> simp [LaneCtl.stopList, hr]

/-- R105: STOP. -/
theorem State.stopLane_moves (s : State) (l : Lane) : Moves C L s (s.stopLane l) := by
  have m : Moves C L s ((s.stopPlans l).modLane l LaneCtl.stopList) := by
    refine (s.stopPlans_planWork l).moves.tail (Move.lane (.of_counts (LaneCtl.stopList_length_le _)
      fun n b => ⟨?_, b.gapCount, .inl rfl, b.buttonFilter⟩) (.inr (.inr LaneCtl.stopList_cleared)))
    have := b.measure
    unfold LaneCtl.stopList
    dsimp only
    split
    · exact Nat.zero_le _
    · exact this
  unfold State.stopLane
  dsimp only
  split
  · exact m
  · exact m.trans (State.enterLane_moves _ _ _ _ (.inr (.inr (.inr rfl))))

theorem State.actResume_moves (s : State) (b : Byte) : Moves C L s (s.actResume b) := by
  refine s.onLane_moves b fun l => ?_
  split
  · rename_i hs
    exact (s.enterLane_moves l _ _ (.inr (.inr (.inl (by simp [hs]))))).trans (State.settle_moves _ _ _ _)
  · rename_i hs
    refine Relation.ReflTransGen.trans (Move.lane (.of_counts (Nat.zero_le _) fun _ b =>
      ⟨b.measure, b.gapCount, .inl rfl, b.buttonFilter⟩) (.inr (.inr fun hc => ?_))).moves
      ((State.enterLane_moves _ l _ _ (.inr (.inr (.inl ?_)))).trans (State.settle_moves _ _ _ _))
    · obtain ⟨hst, -⟩ := (LaneCtl.cleared_iff _).1 hc
      simp [hs] at hst
    · simp [LaneCtl.deleteList, hs]
  · exact s.refuseMessage_moves
  · exact s.refuseMessage_moves
  · exact s.refuseMessage_moves

theorem LaneCtl.leave_cleared {c : LaneCtl} (h : c.cleared = true) : c.leave.cleared = true := by
  obtain ⟨hs, hp, hl, -, -, -, he⟩ := (LaneCtl.cleared_iff _).1 h
  have hm : c.measuring? = none := by simp [LaneCtl.measuring?, hp]
  refine (LaneCtl.cleared_iff _).2 ?_
  simp [LaneCtl.leave, LaneCtl.discardMeasure, hm, hs, hp, hl, he]

theorem State.leaveLane_moves (s : State) (l : Lane) : Moves C L s (s.modLane l LaneCtl.leave) :=
  (Move.lane (f := LaneCtl.leave) (.of_counts (LaneCtl.discardMeasure_length_le _) fun n b => by
    have k := LaneCtl.discardMeasure_bounded b
    exact ⟨k.measure, k.gapCount, k.gapTest, k.buttonFilter⟩) (.inr (.inr LaneCtl.leave_cleared))).moves

/-- What a message does when it is acted on. -/
theorem State.act_moves (s : State) (m : Message) (hL : s.LanesHeld L) : Moves C L s (s.act m) := by
  cases m with
  | scan lane id chute flags =>
    exact s.onLane_moves lane fun l => (s.takeScan_moves l _ hL).trans (State.drive_moves _)
  | start lane =>
    refine s.onLane_moves lane fun l => ?_
    split
    · rename_i h
      simp only [Bool.and_eq_true] at h
      exact (s.enterLane_moves l _ _ (.inr (.inl (State.mapInUse_of_online h.1)))).trans
        (State.settle_moves _ _ _ _)
    · exact s.refuseMessage_moves
  | stop lane =>
    exact s.onLane_moves lane fun l => (s.stopLane_moves l).trans (State.settle_moves _ _ _ _)
  | pause lane =>
    refine s.onLane_moves lane fun l => ?_
    split
    · rename_i hs
      exact (s.enterLane_moves l _ _ (.inr (.inr (.inl (by simp [hs]))))).trans (State.settle_moves _ _ _ _)
    · exact .refl
    · exact s.refuseMessage_moves
    · exact s.refuseMessage_moves
    · exact s.refuseMessage_moves
  | resume lane => exact s.actResume_moves lane
  | setPointer index =>
    show Moves C L s (s.actSetPointer index)
    unfold State.actSetPointer
    split
    · exact (Move.words (w := s.table.working) fun _ => Nat.lt_succ_iff.1 ‹_›).moves
    · exact s.refuseMessage_moves
  | loadWord value => exact (Move.words (w := (s.table.write value).working) id).moves
  | loadWordNext value =>
    exact (Move.words (w := (s.table.write value).working) fun _ =>
      Nat.lt_succ_iff.1 (Nat.mod_lt _ (by decide : Config.wordCount > 0))).moves
  | apply =>
    show Moves C L s s.actApply
    unfold State.actApply
    have refused : Moves C L s (s.setCommandError.queueReport (.applyResult .wrongState)).drive :=
      (s.setCommandError_moves.trans (State.queueReport_moves _ _)).trans (State.drive_moves _)
    split
    · exact (Move.beginApply (.inl ‹_›)).moves.trans (State.drive_moves _)
    · exact (Move.beginApply (.inr ‹_›)).moves.trans (State.drive_moves _)
    · exact refused
    · exact refused
    · exact refused
  | join =>
    show Moves C L s s.actJoin
    unfold State.actJoin
    split
    · exact (Move.join ‹_›).moves.trans (State.settle_moves _ _ _ _)
    · exact s.refuseMessage_moves
  | leave =>
    show Moves C L s s.actLeave
    unfold State.actLeave
    split
    · rename_i ho
      refine Relation.ReflTransGen.trans ?_ (State.settle_moves _ _ _ _)
      refine Relation.ReflTransGen.tail ((s.withdrawAll_planWork.moves.trans
        (State.leaveLane_moves _ .l0)).trans (State.leaveLane_moves _ .l1)) (Move.leave ?_)
      exact (congrArg ConfigTable.station s.withdrawAll_planWork.table).trans ho
    · exact s.refuseMessage_moves
  | readTray tray =>
    show Moves C L s (s.actReadTray tray)
    unfold State.actReadTray
    split
    · exact (s.queueReport_moves _).trans (State.drive_moves _)
    · exact s.refuseMessage_moves
  | clearDefect tray =>
    show Moves C L s (s.actClearDefect tray)
    unfold State.actClearDefect State.clearRecord
    split
    · split
      · split
        · split
          · exact (s.recond_planWork _ _ _ _).moves
          · exact .refl
        · exact .refl
      · exact .refl
    · exact s.refuseMessage_moves
  | identify => exact (s.queueReport_moves _).trans (State.drive_moves _)
  | clearFlags =>
    exact ((s.modPort_moves le_rfl).tail (Move.rep le_rfl)).trans (State.drive_moves _)
  | reset =>
    show Moves C L s s.actReset
    exact (Move.reset s).moves.trans (State.modPort_moves s.resetBlocks le_rfl)

theorem State.takeMessage_moves (s : State) (m : Message) (hL : s.LanesHeld L) :
    Moves C L s (s.takeMessage m) := by
  unfold State.takeMessage
  split
  · exact s.refuseMessage_moves
  · exact s.act_moves m hL

theorem State.unlessHeld_takeMessage_moves (s : State) (m : Message) (hL : s.LanesHeld L) :
    MovesTo C L s (s.unlessHeld fun s => s.takeMessage m) :=
  State.unlessHeld_movesTo .refl (s.takeMessage_moves m hL)

theorem State.shiftOut_moves (s : State) (b : Byte) : Moves C L s (s.shiftOut b) := s.modPort_moves le_rfl

theorem State.setSelect_moves (s : State) (v : Select) : Moves C L s (s.setSelect v) := s.modPort_moves le_rfl

theorem execTransactionByte_moves (byte : Byte) (s : State) : MovesTo C L s (execTransactionByte byte s) := by
  refine State.unlessHeld_movesTo .refl ?_
  dsimp only
  split
  · refine (s.shiftOut_moves 0).trans ?_
    split
    · exact State.setSelect_moves _ _
    split
    · exact State.setSelect_moves _ _
    split
    · exact State.setSelect_moves _ _
    · exact ((State.setSelect_moves _ _).trans (State.setCommandError_moves _)).trans (State.drive_moves _)
  · exact .refl

theorem execPutByte_moves (byte : Byte) (s : State) : MovesTo C L s (execPutByte byte s) := by
  refine State.unlessHeld_movesTo .refl ?_
  split
  · refine ((s.shiftOut_moves 0).trans ?_).trans (State.drive_moves _)
    unfold State.putInbound
    split
    · rename_i h
      exact (Move.port fun _ => by simpa [Config.inboundCapacity] using h).moves
    · exact State.setCommandError_moves _
  · exact s.shiftOut_moves _
  · exact s.shiftOut_moves _
  all_goals exact .refl

theorem execTakeByte_moves (s : State) : MovesTo C L s (execTakeByte s) := by
  refine State.unlessHeld_movesTo .refl ?_
  split
  · refine Relation.ReflTransGen.trans ?_ (State.drive_moves _)
    unfold State.takeReport
    split
    · exact s.shiftOut_moves _
    · rename_i b rest h
      split
      · exact s.shiftOut_moves _
      · refine (s.shiftOut_moves b).tail (Move.rep ?_)
        show rest.length ≤ s.rep.fifo.length
        rw [h]
        exact Nat.le_succ _
  · exact s.shiftOut_moves _
  · exact s.shiftOut_moves _
  all_goals exact .refl

theorem State.assemble_moves (s : State) (a : Assembly) (hL : s.LanesHeld L) :
    Moves C L s (s.assemble a) := by
  unfold State.assemble
  split
  · have m : Moves C L s (s.modPort fun p => { p with assembly := none }) := s.modPort_moves le_rfl
    dsimp only
    split
    · exact m.trans (State.takeMessage_moves _ _ hL)
    · exact m
  · exact s.modPort_moves le_rfl

theorem execParserByte_moves (s : State) (hL : s.LanesHeld L) : MovesTo C L s (execParserByte s) := by
  refine State.unlessHeld_movesTo .refl ?_
  split
  · exact .refl
  · rename_i b rest h
    refine (s.modPort_moves (f := fun p => { p with inbound := rest }) (by simp [h])).trans ?_
    unfold State.parse
    split
    · exact State.assemble_moves _ _ hL
    · split
      · exact State.assemble_moves _ _ hL
      · exact (State.setCommandError_moves _).trans (State.drive_moves _)

theorem execApplyComplete_moves (hC : C) (s : State) : MovesTo C L s (execApplyComplete s) := by
  refine State.unlessHeld_movesTo .refl ?_
  split
  · split
    · exact (s.completeApply_moves hC ‹_› ‹_›).trans (State.settle_moves _ _ _ _)
    · exact .refl
  · exact .refl

/-! ### Every command, and the tick -/

/-- The commands that may move the lock or the counts of positions. -/
def movesCounts : Instr → Bool
  | .encoderCount .. | .markerPulse .. | .markerMissing | .applyComplete => true
  | _ => false

/-- Every command answers a next state, reached by changes. -/
theorem exec_moves (i : Instr) (s : State) (hC : movesCounts i = true → C) (hL : s.LanesHeld L) :
    MovesTo C L s (exec i s) := by
  cases i with
  | encoderCount => exact execEncoderCount_moves (hC rfl) _ _ _ s
  | markerPulse => exact execMarkerPulse_moves (hC rfl) _ _ s
  | markerMissing => exact execMarkerMissing_moves (hC rfl) s
  | applyComplete => exact execApplyComplete_moves (hC rfl) s
  | windowEnd => exact execWindowEnd_moves s
  | yieldChange => exact ⟨_, rfl, (Move.pins s _).moves⟩
  | receivedFrameRejected => exact execReceivedFrameRejected_moves _ _ _ s
  | claimHeard | releaseHeard | loadedHeard | occupiedHeard | defectHeard => exact s.hear_moves _
  | frameAttemptStart => exact execFrameAttemptStart_moves s
  | attemptCollision => exact execAttemptCollision_moves _ s
  | backoffExpired => exact execBackoffExpired_moves s
  | lineHeld => exact execLineHeld_moves s
  | frameTxComplete => exact execFrameTxComplete_moves s
  | entryAbandoned => exact execEntryAbandoned_moves s
  | entryEyeBlocked => exact execEntryEyeBlocked_moves _ s
  | entryEyeClear => exact execEntryEyeClear_moves _ s hL
  | beltEncoderCount => exact execBeltEncoderCount_moves _ s
  | gapCountReached => exact execGapCountReached_moves _ s
  | measurementLimit =>
    exact State.unlessHeld_movesTo (event := fun s => (s.measureLimit _).settle s false false) .refl
      ((s.measureLimit_moves _ hL).trans (State.settle_moves _ _ _ _))
  | holdEyeBlocked => exact execHoldEyeBlocked_moves _ s
  | launchEyeBlocked => exact execLaunchEyeBlocked_moves _ s
  | transferTimeout => exact execTransferTimeout_moves _ s hL
  | mergeEyeBlocked => exact execMergeEyeBlocked_moves _ s
  | mergeEyeClear => exact execMergeEyeClear_moves _ s
  | mergeTimeout => exact execMergeTimeout_moves _ s hL
  | buttonPress => exact execButtonPress_moves _ s
  | buttonFilterElapsed =>
    exact State.unlessHeld_movesTo (event := fun s => s.modLane _ fun c => { c with buttonFilter := Config.filterMs })
      (Move.pins s _).moves (State.setFilter_moves _ _ le_rfl)
  | goPulse => exact execGoPulse_moves _ s
  | goPulseEnd => exact execGoPulseEnd_moves _ s
  | waitBlink => exact execWaitBlink_moves _ s
  | transactionByte => exact execTransactionByte_moves _ s
  | putByte => exact execPutByte_moves _ s
  | takeByte => exact execTakeByte_moves s
  | parserByte => exact execParserByte_moves s hL
  | scan | start | stop | pause | resume | setPointer | loadWord | loadWordNext | apply | join | leave |
    readTray | clearDefect | identify | clearFlags | reset => exact s.unlessHeld_takeMessage_moves _ hL
  | leavingEnd =>
    exact State.unlessHeld_movesTo (event := fun s => s.testLeaving.settle s false false) .refl
      (s.testLeaving_moves.trans (State.settle_moves _ _ _ _))
  | resetLine => exact ⟨_, rfl, (Move.reset s).moves.tail (Move.pins _ _)⟩
  | selectPeriodStart =>
    refine State.unlessHeld_movesTo (event := fun u => if s.pins.scsLow then u else u.setSelect .awaiting)
      (Move.pins s _).moves ?_
    split
    · exact .refl
    · exact State.setSelect_moves _ _
  | selectPeriodEnd =>
    exact State.unlessHeld_movesTo (event := fun u => u.setSelect .idle) (Move.pins s _).moves
      (State.setSelect_moves _ _)
  | resetLineReleased => exact ⟨_, rfl, (Move.pins s _).moves⟩
  | receiverEntersHunting =>
    refine State.unlessHeld_movesTo .refl ?_
    split
    · exact (Move.line ⟨rfl, fun _ b => ⟨Nat.zero_le _, b.attempt, b.backoff,
        max_le b.idleRun (by decide), b.holdCount⟩⟩).moves
    · exact .refl

theorem State.filterTick_le {s : State} {l : Lane} (h : (s.lane l).buttonFilter ≤ 20) :
    (if s.filterRuns l && !s.filterDue l then (s.lane l).buttonFilter + 1 else (s.lane l).buttonFilter) ≤ 20 := by
  split
  · rename_i hr
    obtain ⟨-, hlt⟩ := Bool.and_eq_true_iff.1 (Bool.and_eq_true_iff.1 hr).1
    have : (s.lane l).buttonFilter < 20 := of_decide_eq_true hlt
    omega
  · exact h

theorem State.tickLane_moves (s : State) (l : Lane) : Moves C L s (s.tickLane l) := by
  refine Relation.ReflTransGen.trans (Move.lane (.of_counts le_rfl fun n b =>
    ⟨b.measure, b.gapCount, b.gapTest, State.filterTick_le b.buttonFilter⟩)
    (.inr (.inr fun hc => ?_))).moves (State.modPaceLane_moves _ l fun _ b => ⟨b.index, b.hyst⟩)
  obtain ⟨hs, hp, hl, ht, hrest⟩ := (LaneCtl.cleared_iff _).1 hc
  exact (LaneCtl.cleared_iff _).2 ⟨hs, hp, by simp [hl], by simp [ht], hrest⟩

theorem State.windowTick_le {s : State} (h : s.loop.windowTimer ≤ 99) :
    (if s.windowDue then s.loop.windowTimer else s.loop.windowTimer + 1) ≤ 99 := by
  split
  · exact h
  · rename_i hd
    have : ¬ 100 ≤ s.loop.windowTimer + 1 := fun h => hd (decide_eq_true h)
    omega

theorem State.tickWindow_moves (s : State) : Moves C L s (s.modLoop fun c =>
    { c with windowTimer := if s.windowDue then c.windowTimer else c.windowTimer + 1 }) :=
  (Move.window (fun b => ⟨b.vs, b.windowLow, b.windowHigh, State.windowTick_le b.windowTimer, b.standstill⟩)
    ⟨rfl, rfl, rfl, rfl, rfl, rfl⟩).moves

theorem State.tickApply_moves (s : State) (due : Bool) : Moves C L s (s.modTable fun t =>
    { t with applying :=
        if due then t.applying else t.applying.map fun a => { a with timer := a.timer + 1 } }) := by
  cases due with
  | false => exact (Move.applyTimer s fun n => n + 1).moves
  | true =>
    have m := Move.applyTimer (counts := C) (lanes := L) s id
    simpa using m.moves

theorem State.tickStation_moves (s : State) : Moves C L s s.tickStation :=
  s.tickWindow_moves.trans (State.tickApply_moves _ _)

/-- The 1 ms tick. -/
theorem State.tickMs_moves (s : State) : Moves C L s s.tickMs :=
  ((((s.afterOrder_planWork s.due).moves.trans (State.tickStation_moves _)).trans
    (State.tickLane_moves _ .l0)).trans (State.tickLane_moves _ .l1)).tail (Move.clock _ _ _)

/-- One step is a sequence of changes. -/
theorem step_moves {s t : State} (h : step s = .next t)
    (hC : ∀ i rest, s.pending = i :: rest → movesCounts i = true → C) (hL : s.LanesHeld L) :
    Moves C L s t := by
  unfold step at h
  split at h
  · rename_i i rest hp
    obtain ⟨u, e, m⟩ := exec_moves i (s.withPending rest) (hC i rest hp) (L := L) hL
    rw [e] at h
    cases h
    exact (Move.clock s s.tick rest).moves.trans m
  · cases h
    split
    · exact .refl
    · exact s.tickMs_moves

/-- Where the lanes are cleared off the line no lane takes anything up there. -/
theorem State.OffIdle.lanesHeld {s : State} (h : s.OffIdle) : s.LanesHeld False := by
  intro l hc
  refine .inr (by_contra fun hm => ?_)
  rw [(h (eq_false_of_ne_true hm)).1 l] at hc
  cases hc

/-- Settles O7: every change of a step keeps the station state. -/
theorem stepKeepsStationStateSound : Obligations.StepKeepsStationStateSound := by
  intro s t hs h
  rw [State.stationSound_iff] at hs ⊢
  exact (step_moves (C := True) (L := True) h (fun _ _ _ _ => trivial) fun _ _ => .inl trivial).keep
    (fun _ _ => Move.stationOk) hs

/-- Settles O8: every change of a step keeps the lanes cleared and no plan live off the line. -/
theorem stepKeepsOfflineLanesCleared : Obligations.StepKeepsOfflineLanesCleared := by
  intro s t hs h
  rw [State.offlineIdle_iff] at hs ⊢
  exact (step_moves (C := True) h (fun _ _ _ _ => trivial) hs.lanesHeld).keep (fun _ _ => Move.offIdle) hs

/-- Settles O5: every change of a step keeps the bounds, with the station state and the lanes off the line. -/
theorem stepKeepsBuffersWithinBounds : Obligations.StepKeepsBuffersWithinBounds := by
  intro s t hst hoff hb h
  rw [State.stationSound_iff] at hst
  rw [State.offlineIdle_iff] at hoff
  rw [State.withinBounds_iff] at hb ⊢
  exact ((step_moves (C := True) h (fun _ _ _ _ => trivial) hoff.lanesHeld).keep
    (I := fun u => u.StationOk ∧ u.OffIdle ∧ u.Bounded)
    (fun _ _ m ⟨ks, ko, kb⟩ => ⟨m.stationOk ks, m.offIdle ko, m.bounded ks ko kb⟩) ⟨hst, hoff, hb⟩).2.2

end Sys2Proof.Machine
end

section
/-! SUPPORT. The Loop Tracker's counts in agreement (1.1, R1 to R7), and what keeps them so; PROOF of O6. -/

namespace Sys2Proof.Machine

variable {L : Prop}

/-- In lock on a loop of `len` counts: S on the loop, the backlog at most half of it, the frontier ahead of S by the
backlog, and one marker missing exactly in COASTING (1.1, R1, R2, R6). -/
structure LoopTracker.Agrees (c : LoopTracker) (len : Nat) : Prop where
  locked : c.lock ≠ .unlocked
  S : c.S < len
  backlog : c.backlog ≤ len / 2
  frontier : c.frontier = (c.S + c.backlog) % len
  missing : c.missing = if c.lock = .coasting then 1 else 0

/-- Out of lock with every count 0 (R7). -/
structure LoopTracker.AtZero (c : LoopTracker) : Prop where
  lock : c.lock = .unlocked
  S : c.S = 0
  backlog : c.backlog = 0
  frontier : c.frontier = 0
  travel : c.travel = 0
  missing : c.missing = 0

/-- 1.1: in lock, or out of it with every count 0 and no entry held. -/
def State.LoopOk (s : State) : Prop :=
  (s.loop.Agrees s.loopLength ∧ s.loop.travel ≤ s.loopLength + s.cfgSlip) ∨
    (s.loop.AtZero ∧ s.trig = .all none ∧ s.aims = .all none)

theorem State.loopSound_iff (s : State) : s.loopSound = true ↔ s.LoopOk := by
  unfold State.loopSound State.LoopOk
  cases hl : s.loop.lock with
  | unlocked =>
    have hn : ¬ s.loop.Agrees s.loopLength := fun a => a.locked hl
    simp only [Bool.and_eq_true, beq_iff_eq]
    constructor
    · rintro ⟨⟨⟨⟨⟨⟨hS, hb⟩, hf⟩, ht⟩, hm⟩, hr⟩, ha⟩
      exact .inr ⟨⟨hl, hS, hb, hf, ht, hm⟩, hr, ha⟩
    · rintro (⟨a, -⟩ | ⟨z, hr, ha⟩)
      · exact absurd a hn
      · exact ⟨⟨⟨⟨⟨⟨z.S, z.backlog⟩, z.frontier⟩, z.travel⟩, z.missing⟩, hr⟩, ha⟩
  | locked | coasting =>
    have hn : ¬ s.loop.AtZero := fun z => by
      have := z.lock
      rw [hl] at this
      cases this
    simp only [Bool.and_eq_true, beq_iff_eq, decide_eq_true_eq]
    constructor
    · rintro ⟨⟨⟨⟨hS, hb⟩, hf⟩, ht⟩, hm⟩
      exact .inl ⟨⟨by rw [hl]; decide, hS, hb, hf, by rw [hl]; exact hm⟩, ht⟩
    · rintro (⟨a, ht⟩ | ⟨z, -⟩)
      · have hm := a.missing
        rw [hl] at hm
        exact ⟨⟨⟨⟨a.S, a.backlog⟩, a.frontier⟩, ht⟩, hm⟩
      · exact absurd z hn

theorem State.locked_iff (s : State) : s.locked = true ↔ s.loop.lock ≠ .unlocked := by
  unfold State.locked
  cases s.loop.lock <;> decide

theorem State.LoopOk.agrees {s : State} (h : s.LoopOk) (hl : s.locked = true) :
    s.loop.Agrees s.loopLength ∧ s.loop.travel ≤ s.loopLength + s.cfgSlip :=
  h.resolve_right fun ⟨z, _⟩ => (s.locked_iff.1 hl) z.lock

theorem State.loopLength_congr {s t : State} (hw : ∀ i, t.cw i = s.cw i) : t.loopLength = s.loopLength := by
  unfold State.loopLength State.cfgT State.cfgP
  rw [hw, hw]

theorem State.cfgSlip_congr {s t : State} (hw : ∀ i, t.cw i = s.cw i) : t.cfgSlip = s.cfgSlip := hw 11

/-- The positions, with the words and, out of lock, the entries as they were. -/
theorem State.LoopOk.of_same {s t : State} (h : s.LoopOk) (hp : SamePositions s.loop t.loop)
    (hw : ∀ i, t.cw i = s.cw i)
    (he : s.locked = false → s.trig = .all none → s.aims = .all none →
      t.trig = .all none ∧ t.aims = .all none) : t.LoopOk := by
  have hlen := State.loopLength_congr hw
  have hslip := State.cfgSlip_congr hw
  rcases h with ⟨a, ht⟩ | ⟨z, hr, ha⟩
  · refine .inl ⟨⟨?_, ?_, ?_, ?_, ?_⟩, ?_⟩ <;>
      simp only [hp.lock, hp.S, hp.backlog, hp.frontier, hp.travel, hp.missing, hlen, hslip]
    exacts [a.locked, a.S, a.backlog, a.frontier, a.missing, ht]
  · refine .inr ⟨⟨hp.lock.trans z.lock, hp.S.trans z.S, hp.backlog.trans z.backlog,
      hp.frontier.trans z.frontier, hp.travel.trans z.travel, hp.missing.trans z.missing⟩, ?_⟩
    exact he (eq_false_of_ne_true fun hl => s.locked_iff.1 hl z.lock) hr ha

theorem SamePositions.refl (c : LoopTracker) : SamePositions c c := ⟨rfl, rfl, rfl, rfl, rfl, rfl⟩

theorem SamePositions.of_eq {c d : LoopTracker} (h : d = c) : SamePositions c d := h ▸ .refl c

/-- The Loop Tracker, the committed words and the entries of another state. -/
theorem State.LoopOk.of_eq {s t : State} (h : s.LoopOk) (hl : t.loop = s.loop) (hw : ∀ i, t.cw i = s.cw i)
    (hr : t.trig = s.trig) (ha : t.aims = s.aims) : t.LoopOk :=
  h.of_same (.of_eq hl) hw fun _ h1 h2 => ⟨hr.trans h1, ha.trans h2⟩

/-- Every change but one that moves the counts keeps them in agreement. -/
theorem Move.loopOk {s t : State} (m : Move False L s t) (h : s.LoopOk) : t.LoopOk := by
  cases m with
  | plan w => exact h.of_same (.of_eq w.loop) w.cw w.idle
  | pins => exact h.of_eq rfl (fun _ => rfl) rfl rfl
  | outs => exact h.of_eq rfl (fun _ => rfl) rfl rfl
  | clock => exact h.of_eq rfl (fun _ => rfl) rfl rfl
  | port => exact h.of_eq rfl (fun _ => rfl) rfl rfl
  | rep => exact h.of_eq rfl (fun _ => rfl) rfl rfl
  | line => exact h.of_eq rfl (fun _ => rfl) rfl rfl
  | queue => exact h.of_eq rfl (fun _ => rfl) rfl rfl
  | pace => exact h.of_eq rfl (fun _ => rfl) rfl rfl
  | @lane l f => cases l <;> exact h.of_eq rfl (fun _ => rfl) rfl rfl
  | doubt => exact h.of_eq rfl (fun _ => rfl) rfl rfl
  | entries => exact h.of_same (.refl _) (fun _ => rfl) fun _ _ _ => ⟨rfl, rfl⟩
  | window _ hp => exact h.of_same hp (fun _ => rfl) fun _ h1 h2 => ⟨h1, h2⟩
  | loop hc => exact hc.elim
  | words => exact h.of_eq rfl (fun _ => rfl) rfl rfl
  | applyTimer => exact h.of_eq rfl (fun _ => rfl) rfl rfl
  | beginApply => exact h.of_eq rfl (fun _ => rfl) rfl rfl
  | failApply => exact h.of_eq rfl (fun _ => rfl) rfl rfl
  | commit _ _ hl =>
    rcases h with ⟨a, -⟩ | hz
    · exact absurd hl a.locked
    · exact .inr hz
  | join =>
    rw [State.joinLine_eq]
    exact h.of_eq rfl (fun _ => rfl) rfl rfl
  | leave => exact h.of_eq rfl (fun _ => rfl) rfl rfl
  | endLeaving =>
    rw [State.endLeaving_eq]
    exact h.of_same (.refl _) (fun _ => rfl) fun _ _ _ => ⟨rfl, rfl⟩
  | reset => exact .inr ⟨⟨rfl, rfl, rfl, rfl, rfl, rfl⟩, rfl, rfl⟩

theorem Moves.loopOk {s t : State} (m : Moves False L s t) (h : s.LoopOk) : t.LoopOk :=
  m.keep (fun _ _ => Move.loopOk) h

/-! ### The counts -/

/-- R7: a lock loss leaves every count 0 and no entry held. -/
theorem State.lockLost_loopOk (s : State) : s.lockLost.LoopOk := by
  refine .inr ⟨?_, s.lockLost_entries⟩
  rw [s.lockLost_loop]
  exact ⟨rfl, rfl, rfl, rfl, rfl, rfl⟩

theorem LoopTracker.Agrees.of_same {c d : LoopTracker} {n : Nat} (a : c.Agrees n) (hl : d.lock = c.lock)
    (hS : d.S = c.S) (hb : d.backlog = c.backlog) (hf : d.frontier = c.frontier) (hm : d.missing = c.missing) :
    d.Agrees n := by
  refine ⟨?_, ?_, ?_, ?_, ?_⟩ <;> simp only [hl, hS, hb, hf, hm]
  exacts [a.locked, a.S, a.backlog, a.frontier, a.missing]

/-- R1: a forward count keeps S on the loop and the frontier ahead of it by the backlog. -/
theorem State.stepForward_agrees {s : State} (a : s.loop.Agrees s.loopLength) :
    s.stepForward.loop.Agrees s.loopLength := by
  have hpos : 0 < s.loopLength := Nat.lt_of_le_of_lt (Nat.zero_le _) a.S
  have hS : s.nextS < s.loopLength := Nat.mod_lt _ hpos
  unfold State.stepForward
  rw [State.modLoop_loop]
  split
  · rename_i h0
    exact ⟨a.locked, hS, a.backlog, by simp [h0, Nat.mod_eq_of_lt hS], a.missing⟩
  · rename_i h0
    refine ⟨a.locked, hS, (Nat.sub_le _ _).trans a.backlog, ?_, a.missing⟩
    rw [a.frontier]
    show (s.loop.S + s.loop.backlog) % s.loopLength = (s.nextS + (s.loop.backlog - 1)) % s.loopLength
    unfold State.nextS
    rw [Nat.mod_add_mod]
    congr 1
    omega

theorem State.stepForward_travel (s : State) : s.stepForward.loop.travel = s.loop.travel := by
  unfold State.stepForward
  rw [State.modLoop_loop]
  split <;> rfl

theorem State.newlyReached_loopLength (s : State) (p : Nat) (h : s.locked = true) :
    (s.newlyReached p).loopLength = s.loopLength ∧ (s.newlyReached p).cfgSlip = s.cfgSlip := by
  obtain ⟨u, w, e⟩ := s.newlyReached_planWork p h
  rw [e]
  exact ⟨State.loopLength_congr (t := u) w.cw, State.cfgSlip_congr (t := u) w.cw⟩

/-- A loop that agrees but for a travel count one above its limit is in agreement once the marker is declared
missing (R6). -/
theorem State.declareMissing_loopOk {s : State} (a : s.loop.Agrees s.loopLength)
    (ht : s.loop.travel ≤ s.loopLength + s.cfgSlip + 1) : s.declareMissing.LoopOk := by
  have hpos : 0 < s.loopLength := Nat.lt_of_le_of_lt (Nat.zero_le _) a.S
  unfold State.declareMissing
  split
  · refine .inl ⟨?_, ?_⟩
    · exact ⟨Lock.noConfusion, a.S, a.backlog, a.frontier, rfl⟩
    · show s.loop.travel - s.loopLength ≤ s.loopLength + s.cfgSlip
      omega
  · exact s.lockLost_loopOk

theorem State.newlyReached_loopOk {s : State} (p : Nat) (hl : s.locked = true) (h : s.LoopOk) :
    (s.newlyReached p).LoopOk := by
  obtain ⟨a, ht⟩ := h.agrees hl
  obtain ⟨hlen, hslip⟩ := s.newlyReached_loopLength p hl
  refine .inl ?_
  rw [State.newlyReached_loop _ _ hl, hlen, hslip]
  exact ⟨a, ht⟩

/-- R1, R6: a forward count. -/
theorem State.forwardCount_loopOk {s : State} (hl : s.locked = true) (h : s.LoopOk) :
    s.forwardCount.LoopOk := by
  obtain ⟨a, ht⟩ := h.agrees hl
  have a1 := State.stepForward_agrees a
  have hl1 : (s.stepForward.modLoop fun c => { c with travel := c.travel + 1 }).locked = true :=
    s.stepForward_locked.trans hl
  have ht1 : (s.stepForward.modLoop fun c => { c with travel := c.travel + 1 }).loop.travel
      ≤ s.loopLength + s.cfgSlip + 1 := by
    have := s.stepForward_travel
    simp only [State.modLoop_loop]
    omega
  have a2 : (s.stepForward.modLoop fun c => { c with travel := c.travel + 1 }).loop.Agrees s.loopLength :=
    a1.of_same rfl rfl rfl rfl rfl
  have hlen : (s.stepForward.modLoop fun c => { c with travel := c.travel + 1 }).loopLength = s.loopLength := rfl
  have hslip : (s.stepForward.modLoop fun c => { c with travel := c.travel + 1 }).cfgSlip = s.cfgSlip := rfl
  unfold State.forwardCount
  generalize (s.stepForward.modLoop fun c => { c with travel := c.travel + 1 }) = s1 at *
  rw [← hlen] at a2
  have in_time : s1.markerOverdue ≠ true → s1.LoopOk := fun ho => by
    have : ¬ s1.loopLength + s1.cfgSlip < s1.loop.travel := fun k => ho (decide_eq_true k)
    exact .inl ⟨a2, by omega⟩
  have late : s1.declareMissing.LoopOk := State.declareMissing_loopOk a2 (by omega)
  dsimp only
  split
  · split
    · split
      · have hb : s1.bumpFree.locked = true := hl1
        obtain ⟨hlen', hslip'⟩ := s1.bumpFree.newlyReached_loopLength s.nextS hb
        refine State.declareMissing_loopOk ?_ ?_ <;> rw [State.newlyReached_loop _ _ hb, hlen']
        · exact a2
        · rw [hslip']
          exact ht1.trans (by rw [← hlen, ← hslip]; exact le_rfl)
      · have late' : s1.bumpFree.declareMissing.LoopOk :=
          State.declareMissing_loopOk a2 (ht1.trans (by rw [← hlen, ← hslip]; exact le_rfl))
        split
        · exact State.newlyReached_loopOk _ ‹_› late'
        · exact late'
    · exact State.newlyReached_loopOk _ hl1 (in_time ‹_›)
  · split
    · exact late
    · exact in_time ‹_›

/-- R1, R2: a backward count. -/
theorem State.backwardCount_loopOk {s : State} (hl : s.locked = true) (h : s.LoopOk) :
    s.backwardCount.LoopOk := by
  obtain ⟨a, ht⟩ := h.agrees hl
  have hpos : 0 < s.loopLength := Nat.lt_of_le_of_lt (Nat.zero_le _) a.S
  unfold State.backwardCount
  split
  · exact s.lockLost_loopOk
  · refine .inl ⟨⟨a.locked, Nat.mod_lt _ hpos, Nat.le_of_not_lt ‹_›, ?_, a.missing⟩,
      (Nat.sub_le _ _).trans ht⟩
    show s.loop.frontier =
      ((s.loop.S + (s.loopLength - 1)) % s.loopLength + (s.loop.backlog + 1)) % s.loopLength
    rw [a.frontier, Nat.mod_add_mod, ← Nat.add_mod_right (s.loop.S + s.loop.backlog)]
    congr 1
    omega

theorem State.loopCount_loopOk {s : State} (forward : Bool) (h : s.LoopOk) : (s.loopCount forward).LoopOk := by
  unfold State.loopCount
  split
  · split
    · exact State.forwardCount_loopOk ‹_› h
    · exact State.backwardCount_loopOk ‹_› h
  · exact h

/-- R3: a marker acquires lock on a loop that has a length. -/
theorem State.acquireLock_loopOk {s : State} (hpos : 0 < s.loopLength) : s.acquireLock.LoopOk := by
  have h0 : (s.modLoop fun c => { c with
      lock := .locked, S := 0, backlog := 0, frontier := 0, travel := 0, missing := 0 }).LoopOk :=
    .inl ⟨⟨by simp, hpos, Nat.zero_le _, by simp, by simp⟩, Nat.zero_le _⟩
  exact (State.queueReport_moves (C := False) (L := True) _ _).loopOk (State.newlyReached_loopOk 0 rfl h0)

/-- R4: an accepted marker starts the travel count again and ends COASTING. -/
theorem State.confirmLock_loopOk {s : State} (a : s.loop.Agrees s.loopLength) : s.confirmLock.LoopOk := by
  unfold State.confirmLock
  dsimp only
  split
  · refine (State.queueReport_moves (C := False) (L := True) _ _).loopOk (.inl ⟨?_, Nat.zero_le _⟩)
    exact ⟨by simp, a.S, a.backlog, a.frontier, by simp⟩
  · refine .inl ⟨⟨a.locked, a.S, a.backlog, a.frontier, ?_⟩, Nat.zero_le _⟩
    simp [‹¬ s.loop.lock = .coasting›]

/-- R5: a forward correction, its positions newly reached, keeps the counts but K in agreement. -/
theorem State.correctForward_agrees (n : Nat) {s : State} (hl : s.locked = true)
    (a : s.loop.Agrees s.loopLength) :
    (State.correctForward n s).loop.Agrees (State.correctForward n s).loopLength := by
  induction n generalizing s with
  | zero => exact a
  | succ n ih =>
    refine ih (s.correctForwardOne_locked hl) ?_
    have a1 := State.stepForward_agrees a
    unfold State.correctForwardOne
    split
    · have hl1 := s.stepForward_locked.trans hl
      rw [State.newlyReached_loop _ _ hl1, (State.newlyReached_loopLength _ _ hl1).1]
      exact a1
    · exact a1

/-- R4, R5: a marker in lock. -/
theorem State.testMarker_loopOk {s : State} (hl : s.locked = true) (h : s.LoopOk) : s.testMarker.LoopOk := by
  obtain ⟨a, -⟩ := h.agrees hl
  unfold State.testMarker
  dsimp only
  split
  · split
    · unfold State.correctBackward
      split
      · split
        · rename_i hk
          rw [State.locked_iff, s.lockLost_loop] at hk
          exact absurd rfl hk
        · exact s.lockLost_loopOk
      · rename_i hb
        have hk : (s.modLoop fun c => { c with S := 0, backlog := c.backlog + s.loop.S }).locked = true := hl
        rw [if_pos hk]
        refine State.confirmLock_loopOk ⟨a.locked, Nat.lt_of_le_of_lt (Nat.zero_le _) a.S, Nat.le_of_not_lt hb,
          ?_, a.missing⟩
        show s.loop.frontier = (0 + (s.loop.backlog + s.loop.S)) % s.loopLength
        rw [a.frontier]
        congr 1
        omega
    · exact s.lockLost_loopOk
  · split
    · exact State.confirmLock_loopOk (State.correctForward_agrees _ hl a)
    · exact s.lockLost_loopOk

/-! ### The loop commands -/

theorem State.unlessHeld_loopOk {s t : State} {event : State → State} (h : s.LoopOk)
    (he : (event s).LoopOk) (hn : s.unlessHeld event = .next t) : t.LoopOk := by
  cases hn
  split
  · exact h
  · exact he

theorem State.returnUnlocked_loopOk {s : State} (h : s.LoopOk) : s.returnUnlocked.LoopOk := by
  unfold State.returnUnlocked
  split
  · have k := s.lockLost_loopOk
    generalize s.lockLost = u at k ⊢
    exact k.of_eq rfl (fun _ => rfl) rfl rfl
  · exact h

/-- R162: an APPLY that completes commits its copy on an unlocked loop, or leaves the loop. -/
theorem State.completeApply_loopOk {s : State} {a : Applying} (h : s.LoopOk) : (s.completeApply a).LoopOk := by
  unfold State.completeApply
  split
  · rcases State.returnUnlocked_loopOk h with ⟨g, -⟩ | hz
    · exact absurd (s.returnUnlocked_moves (C := True) (L := True) trivial).2 g.locked
    · exact (State.queueReport_moves (C := False) (L := True) _ _).loopOk (.inr hz)
  · exact (State.queueReport_moves (C := False) (L := True) _ _).loopOk
      (h.of_eq rfl (fun _ => rfl) rfl rfl)

/-- The commands that move the counts of positions keep them in agreement. -/
theorem execCounts_loopOk {s t : State} {i : Instr} (hi : movesCounts i = true) (hs : s.StationOk)
    (h : s.LoopOk) (hn : exec i s = .next t) : t.LoopOk := by
  have settled : ∀ {u : State} (b : State) (x y : Bool), u.LoopOk → (u.settle b x y).LoopOk :=
    fun b x y => (State.settle_moves (C := False) (L := True) _ b x y).loopOk
  cases i with
  | encoderCount forward chk lvl =>
    refine State.unlessHeld_loopOk (event := fun s => (((s.sample chk lvl).countWindow forward).loopCount
      forward).settle s (s.countArrives forward) false) h ?_ hn
    refine settled _ _ _ (State.loopCount_loopOk _ ?_)
    exact Moves.loopOk (L := True) ((Move.pins s _).moves.trans (State.countWindow_moves _ _)) h
  | markerPulse chk lvl =>
    have hp : (s.sample chk lvl).LoopOk := (Move.pins s _).loopOk (L := True) h
    refine State.unlessHeld_loopOk (event := fun s => (if s.locked then (s.sample chk lvl).testMarker
      else if s.hasConfig then (s.sample chk lvl).acquireLock else s.sample chk lvl).settle s
        s.markerArrives false) h (settled _ _ _ ?_) hn
    split
    · exact State.testMarker_loopOk (s := s.sample chk lvl) ‹_› hp
    · split
      · rename_i hc
        exact State.acquireLock_loopOk (s := s.sample chk lvl)
          (hs.committedOk.loopLength_pos (by simpa [State.hasConfig] using hc))
      · exact hp
  | markerMissing =>
    refine State.unlessHeld_loopOk (event := fun s => if s.locked then ((s.modLoop fun c =>
      { c with travel := s.loopLength + s.cfgSlip + 1 }).declareMissing).settle s false false else s) h ?_ hn
    split
    · obtain ⟨a, -⟩ := h.agrees ‹_›
      exact settled _ _ _ (State.declareMissing_loopOk (a.of_same rfl rfl rfl rfl rfl) le_rfl)
    · exact h
  | applyComplete =>
    have hn : execApplyComplete s = .next t := hn
    unfold execApplyComplete at hn
    refine State.unlessHeld_loopOk h ?_ hn
    split
    · split
      · exact settled _ _ _ (State.completeApply_loopOk h)
      · exact h
    · exact h
  | _ => cases hi

/-- Settles O6: a command that moves the counts of positions keeps them in agreement, and every other change
leaves them. -/
theorem stepKeepsLoopCountsInAgreement : Obligations.StepKeepsLoopCountsInAgreement := by
  intro s t hst hs h
  rw [State.stationSound_iff] at hst
  rw [State.loopSound_iff] at hs ⊢
  by_cases hi : ∃ i rest, s.pending = i :: rest ∧ movesCounts i = true
  · obtain ⟨i, rest, hp, hi⟩ := hi
    unfold step at h
    rw [hp] at h
    exact execCounts_loopOk hi ((Move.clock s s.tick rest).stationOk (C := True) (L := True) hst)
      ((Move.clock s s.tick rest).loopOk (L := True) hs) h
  · exact (step_moves (L := True) h (fun i rest hp hm => hi ⟨i, rest, hp, hm⟩)
      fun _ _ => .inl trivial).loopOk hs

end Sys2Proof.Machine
end

section
/-! SUPPORT. A lane at rest (R90, R91, R142), what of the state decides it, and the end of an event that leaves
every lane so. -/

namespace Sys2Proof.Machine

/-! ### What decides whether a lane is at rest -/

/-- What R90, R91 and R142 read of the state for one lane: a record by its place and whether it is named. -/
structure RestView where
  online : Bool
  locked : Bool
  capacity : Nat
  state : LaneState
  places : List (Place × Bool)
  feed : Bool
  valid : Bool
  aspect : Aspect

def State.restView (s : State) (l : Lane) : RestView where
  online := s.online
  locked := s.locked
  capacity := s.cfgCapacity l
  state := (s.lane l).state
  places := (s.lane l).parcels.map fun r => (r.place, r.named.isNone)
  feed := (s.lane l).feed
  valid := (s.pace.lanes.get l).valid
  aspect := (s.pace.lanes.get l).aspect

def RestView.transferReady (v : RestView) : Bool :=
  (v.online && (v.state == .running || v.state == .paused || v.state == .blocked) &&
    !(v.places.any fun x => x.1 == .transferring || x.1 == .ready || x.1 == .launching)) &&
    v.places.any fun x => x.1 == .holding && x.2

def RestView.feedRuns (v : RestView) : Bool :=
  v.online && v.state == .running && !(v.places.any fun x => x.1 == .holding || x.1 == .transferring) &&
    v.places.any fun x => x.1 == .queued

def RestView.fill (v : RestView) : Nat := v.places.countP fun x => x.1 == .measuring || x.1 == .queued

def RestView.aspectDue (v : RestView) : Aspect :=
  match v.state with
  | .stopped => .off
  | .blocked | .fault => .stop
  | .paused => if v.capacity ≤ v.fill then .stop else .wait
  | .running =>
    if v.capacity ≤ v.fill then .stop
    else if !v.online then .wait
    else if v.fill + 1 = v.capacity then .wait
    else if !v.locked then .wait
    else if !v.valid then .wait
    else .go

theorem State.transferReady?_isSome (s : State) (l : Lane) :
    (s.transferReady? l).isSome = (s.restView l).transferReady := by
  unfold State.transferReady? RestView.transferReady State.restView LaneCtl.launchTaken
  dsimp only
  rw [List.any_map, List.any_map]
  by_cases h : (s.online && ((s.lane l).state == .running || (s.lane l).state == .paused ||
      (s.lane l).state == .blocked) && !(s.lane l).parcels.any fun r =>
        r.place == .transferring || r.place == .ready || r.place == .launching) = true
  · rw [if_pos h]
    simp only [Function.comp_def, h, Bool.true_and]
    rw [Bool.eq_iff_iff, List.find?_isSome, List.any_eq_true]
  · rw [if_neg h]
    simp only [Function.comp_def, eq_false_of_ne_true h, Bool.false_and, Option.isSome_none]

theorem State.feedRuns_eq (s : State) (l : Lane) : s.feedRuns l = (s.restView l).feedRuns := by
  unfold State.feedRuns RestView.feedRuns State.restView LaneCtl.holdTaken
  simp [List.any_map, Function.comp_def]

theorem State.aspectOf_eq (s : State) (l : Lane) : s.aspectOf l = (s.restView l).aspectDue := by
  unfold State.aspectOf RestView.aspectDue RestView.fill State.restView LaneCtl.entryFill
  simp only [List.countP_map, Function.comp_def] <;> rfl

/-- One lane at rest reads its view alone. -/
theorem State.laneAtRest_congr {s t : State} {l : Lane} (h : t.restView l = s.restView l) :
    t.laneAtRest l = s.laneAtRest l := by
  have hr : (t.transferReady? l).isNone = (s.transferReady? l).isNone := by
    rw [← Option.not_isSome, ← Option.not_isSome, State.transferReady?_isSome, State.transferReady?_isSome, h]
  have hf : (t.lane l).feed = (s.lane l).feed := congrArg RestView.feed h
  have ha : (t.pace.lanes.get l).aspect = (s.pace.lanes.get l).aspect := congrArg RestView.aspect h
  unfold State.laneAtRest
  rw [hr, hf, ha, State.feedRuns_eq, State.feedRuns_eq, State.aspectOf_eq, State.aspectOf_eq, h]

theorem State.atRest_iff (s : State) :
    s.atRest = true ↔ (∀ l, s.laneAtRest l = true) ∧ s.outs = s.outputs := by
  simp only [State.atRest, Bool.and_eq_true, beq_iff_eq]
  exact ⟨fun ⟨⟨h0, h1⟩, ho⟩ => ⟨fun l => by cases l <;> assumption, ho⟩,
    fun ⟨h, ho⟩ => ⟨⟨h .l0, h .l1⟩, ho⟩⟩

/-- At rest stays at rest where what the lanes' conditions and the output lines read is as it was. -/
theorem State.atRest_of_same {s t : State} (h : s.atRest = true) (hv : ∀ l, t.restView l = s.restView l)
    (ho : t.outputs = s.outputs) (hu : t.outs = s.outs) : t.atRest = true := by
  rw [State.atRest_iff] at h ⊢
  exact ⟨fun l => (State.laneAtRest_congr (hv l)).trans (h.1 l), by rw [ho, hu, h.2]⟩

/-- Driving the output lines leaves a state whose lanes are at rest at rest. -/
theorem State.drive_atRest {s t : State} (h : s.atRest = true) (hv : ∀ l, t.restView l = s.restView l) :
    t.drive.atRest = true := by
  rw [State.atRest_iff] at h ⊢
  exact ⟨fun l => (State.laneAtRest_congr (s := s) (hv l)).trans (h.1 l), rfl⟩

/-! ### The end of an event -/

/-- No transfer of a lane could begin (R91). -/
def State.NoTransfer (s : State) (l : Lane) : Prop := (s.restView l).transferReady = false

theorem State.noTransfer_iff (s : State) (l : Lane) : s.NoTransfer l ↔ s.transferReady? l = none := by
  unfold State.NoTransfer
  rw [← State.transferReady?_isSome, Option.isSome_eq_false_iff, Option.isNone_iff_eq_none]

theorem State.noTransfer_of_atRest {s : State} (h : s.atRest = true) (l : Lane) : s.NoTransfer l := by
  have := (s.atRest_iff.1 h).1 l
  simp only [State.laneAtRest, Bool.and_eq_true, Option.isNone_iff_eq_none] at this
  exact (s.noTransfer_iff l).2 this.1.1

theorem State.NoTransfer.of_eq {s t : State} {l : Lane} (h : s.NoTransfer l) (ho : t.online = s.online)
    (hl : (t.lane l).state = (s.lane l).state) (hp : (t.lane l).parcels = (s.lane l).parcels) :
    t.NoTransfer l := by
  have : (t.restView l).transferReady = (s.restView l).transferReady := by
    simp [RestView.transferReady, State.restView, ho, hl, hp]
  exact this.trans h

theorem State.noTransfer_of_offline {s : State} (h : s.online = false) (l : Lane) : s.NoTransfer l := by
  simp [State.NoTransfer, RestView.transferReady, State.restView, h]

/-- R91: a transfer that could begin has begun, and holds the launch place. -/
theorem State.startTransfer_noTransfer (s : State) (l : Lane) : (s.startTransfer l).NoTransfer l := by
  unfold State.startTransfer
  split
  · rename_i r hr
    have hm : r ∈ (s.lane l).parcels := by
      unfold State.transferReady? at hr
      dsimp only at hr
      split at hr
      · exact List.mem_of_find?_eq_some hr
      · cases hr
    have : ∃ x ∈ ((s.modLane l fun c =>
        { c.modParcel r.tag (fun r => { r with place := .transferring }) with transfer := some 0 }).restView
          l).places, x.1 = .transferring := by
      refine ⟨(.transferring, r.named.isNone), ?_, rfl⟩
      unfold State.restView
      rw [State.modLane_lane_self]
      refine List.mem_map.2 ⟨{ r with place := .transferring }, List.mem_map.2 ⟨r, hm, by simp⟩, rfl⟩
    obtain ⟨x, hx, hp⟩ := this
    have hany : (((s.modLane l fun c =>
        { c.modParcel r.tag (fun r => { r with place := .transferring }) with transfer := some 0 }).restView
          l).places.any fun x => x.1 == .transferring || x.1 == .ready || x.1 == .launching) = true :=
      List.any_eq_true.2 ⟨x, hx, by simp [hp]⟩
    simp [State.NoTransfer, RestView.transferReady, hany]
  · exact (s.noTransfer_iff l).2 ‹_›

theorem State.startTransfer_lane_ne (s : State) {l m : Lane} (h : m ≠ l) :
    (s.startTransfer l).lane m = s.lane m := by
  unfold State.startTransfer
  split
  · exact State.modLane_lane_ne _ _ h
  · rfl

theorem State.startTransfers_noTransfer (s : State) (l : Lane) : s.startTransfers.NoTransfer l := by
  cases l with
  | l1 => exact State.startTransfer_noTransfer _ _
  | l0 =>
    have he := State.startTransfer_lane_ne (s.startTransfer .l0) (l := .l1) (m := .l0) (by decide)
    refine (s.startTransfer_noTransfer .l0).of_eq ?_ (congrArg _ he) (congrArg _ he)
    rw [State.startTransfers, State.startTransfer_eq]
    rfl

/-- Where plan work removes no record, every record is kept. -/
theorem ParcelsKept.exists_of_mem_whole {ps qs : List Parcel} (h : ParcelsKept ps qs)
    (hl : qs.length = ps.length) {p : Parcel} (hp : p ∈ ps) : ∃ q ∈ qs, ParcelKept p q := by
  induction h with
  | nil =>
    rw [List.length_nil, eq_comm, List.length_eq_zero_iff] at hl
    rw [hl] at hp
    cases hp
  | cons e k ih =>
    rcases List.mem_cons.1 hp with rfl | hp
    · exact ⟨_, List.mem_cons_self, e⟩
    · obtain ⟨q, hq, e⟩ := ih (by simpa using hl) hp
      exact ⟨q, List.mem_cons_of_mem _ hq, e⟩
  | cons_right k ih =>
    have := ParcelsKept.length_le k
    simp only [List.length_cons] at hl
    omega

/-- Plan work gives no transfer that could not begin before: a record it moves it launches, and one named it
leaves named (R91). -/
theorem PlanWork.noTransfer {s t : State} (w : PlanWork s t) {l : Lane} (h : s.NoTransfer l) :
    t.NoTransfer l := by
  have k := w.lanes l
  rw [State.noTransfer_iff, State.transferReady?] at h ⊢
  rw [w.online]
  by_cases hs : (s.lane l).state = .stopped
  · simp [k.stopped hs]
  by_cases hd : (s.online && ((s.lane l).state == .running || (s.lane l).state == .paused ||
      (s.lane l).state == .blocked) && !(s.lane l).launchTaken) = true
  · rw [if_pos hd] at h
    split
    · rw [List.find?_eq_none] at h ⊢
      intro q hq
      obtain ⟨p, hp, e⟩ := k.parcels.exists_of_mem hq
      have hno := h p hp
      intro hq'
      simp only [Bool.and_eq_true, beq_iff_eq, Option.isNone_iff_eq_none] at hq' hno
      rcases e.place with e' | e'
      · exact hno ⟨by rw [← e', hq'.1], e.named hq'.2⟩
      · rw [e'] at hq'
        cases hq'.1
    · rfl
  · refine if_neg fun hd' => hd ?_
    simp only [Bool.and_eq_true, Bool.not_eq_true'] at hd' ⊢
    obtain ⟨⟨ho, hst⟩, ht⟩ := hd'
    refine ⟨⟨ho, ?_⟩, eq_false_of_ne_true fun htk => ?_⟩
    · rcases k.state with e | ⟨e, -⟩
      · rwa [e] at hst
      · rcases e with e | e <;> simp [e]
    · have hw := k.whole hs
      obtain ⟨p, hp, hpl⟩ := List.any_eq_true.1 htk
      obtain ⟨q, hq, e⟩ := k.parcels.exists_of_mem_whole hw hp
      have : (t.lane l).launchTaken = true := by
        refine List.any_eq_true.2 ⟨q, hq, ?_⟩
        rcases e.place with e' | e'
        · rwa [e']
        · rw [e']; rfl
      rw [this] at ht
      cases ht

/-- R90: the feeds follow their conditions, which do not read the feeds. -/
theorem State.updateFeeds_feed (s : State) (l : Lane) :
    (s.updateFeeds.lane l).feed = s.updateFeeds.feedRuns l := by
  cases l <;> rfl

theorem State.updateFeeds_noTransfer {s : State} {l : Lane} (h : s.NoTransfer l) : s.updateFeeds.NoTransfer l := by
  cases l <;> exact h

/-- The end of LEAVING leaves both lanes without feed, off the line. -/
theorem State.endLeaving_rest (s : State) (l : Lane) :
    s.endLeaving.NoTransfer l ∧ (s.endLeaving.lane l).feed = s.endLeaving.feedRuns l := by
  have ho : s.endLeaving.online = false := by rw [State.endLeaving_eq]; rfl
  refine ⟨State.noTransfer_of_offline ho l, ?_⟩
  have hf : s.endLeaving.feedRuns l = false := by simp [State.feedRuns, ho]
  rw [hf, State.endLeaving_eq]
  cases l <;> rfl

/-- R142: the aspects are those due, which do not read the aspects. -/
theorem State.retakeAspects_aspect (s : State) (l : Lane) :
    (s.retakeAspects.pace.lanes.get l).aspect = s.retakeAspects.aspectOf l := by
  have hv : ∀ m, (s.retakeAspects.pace.lanes.get m).valid = (s.pace.lanes.get m).valid := fun m => by
    obtain ⟨a, e⟩ := s.retakeAspects_lane m
    rw [e, (PaceLane.become_kept _ a).2.1]
  have hk : s.retakeAspects.aspectOf l = s.aspectOf l := by
    unfold State.aspectOf
    rw [hv l]
    rfl
  rw [hk]
  cases l with
  | l0 => exact (PaceLane.become_kept _ _).2.2.2
  | l1 =>
    have : (s.retakeAspect .l0).aspectOf .l1 = s.aspectOf .l1 := rfl
    rw [← this]
    exact (PaceLane.become_kept _ _).2.2.2

/-- An event whose lanes have no transfer that could begin ends at rest. -/
theorem State.finish_atRest {s : State} (before : State) (test : Bool) (h : ∀ l, s.NoTransfer l) :
    (s.finish before test).atRest = true := by
  have hu : ∀ u : State, (∀ l, u.NoTransfer l ∧ (u.lane l).feed = u.feedRuns l) →
      u.retakeAspects.drive.atRest = true := by
    intro u hr
    rw [State.atRest_iff]
    refine ⟨fun l => ?_, rfl⟩
    simp only [State.laneAtRest, Bool.and_eq_true, beq_iff_eq, Option.isNone_iff_eq_none]
    exact ⟨⟨(State.noTransfer_iff _ _).1 ((hr l).1.of_eq rfl rfl rfl), (hr l).2⟩, u.retakeAspects_aspect l⟩
  unfold State.finish
  dsimp only
  refine hu _ fun l => ?_
  split
  · unfold State.testLeaving
    split
    · exact State.endLeaving_rest _ l
    · exact ⟨State.updateFeeds_noTransfer (h l), State.updateFeeds_feed s l⟩
  · exact ⟨State.updateFeeds_noTransfer (h l), State.updateFeeds_feed s l⟩

/-- An event that ends in `settle` ends at rest. -/
theorem State.settle_atRest (s before : State) (planning test : Bool) :
    (s.settle before planning test).atRest = true := by
  unfold State.settle
  dsimp only
  refine State.finish_atRest _ _ fun l => ?_
  split
  · exact (State.planningEvent_planWork _).noTransfer (s.startTransfers_noTransfer l)
  · exact s.startTransfers_noTransfer l

end Sys2Proof.Machine
end

section
/-! SUPPORT. What each command that does not settle leaves of lanes and output lines; PROOF of O9. -/

namespace Sys2Proof.Machine

/-- An outcome is the next state, at rest. -/
def RestsAt (o : Host.Outcome State Fault Refusal) : Prop := ∃ t, o = .next t ∧ t.atRest = true

/-- R151, R166: an event that ends at rest, or, while RSTN is asserted, none. -/
theorem State.unlessHeld_restsAt {u : State} {event : State → State} (h : u.atRest = true)
    (k : (event u).atRest = true) : RestsAt (u.unlessHeld event) := by
  refine ⟨_, rfl, ?_⟩
  split
  · exact h
  · exact k

/-- Input levels decide nothing of a lane's rest and of no output line. -/
theorem State.modPins_atRest {s : State} (h : s.atRest = true) (f : Pins → Pins) :
    (s.modPins f).atRest = true := State.atRest_of_same h (fun _ => rfl) rfl rfl

theorem State.modLine_atRest {s : State} (h : s.atRest = true) (f : LineIf → LineIf) :
    (s.modLine f).atRest = true := State.atRest_of_same h (fun _ => rfl) rfl rfl

/-- The parser's and the select period's own fields. -/
theorem State.modPort_atRest {s : State} (h : s.atRest = true) {f : LocalPort → LocalPort}
    (he : (f s.port).commandError = s.port.commandError) : (s.modPort f).atRest = true := by
  refine State.atRest_of_same h (fun _ => rfl) ?_ rfl
  show Outs.mk _ _ _ _ _ _ _ = Outs.mk _ _ _ _ _ _ _
  congr 1
  show (_ || ((f s.port).commandError && _) || _) = _
  rw [he]
  rfl

/-- A lane changed in nothing that its rest or its output lines read. -/
theorem State.modLane_atRest {s : State} (h : s.atRest = true) (l : Lane) {f : LaneCtl → LaneCtl}
    (hs : (f (s.lane l)).state = (s.lane l).state)
    (hp : (f (s.lane l)).parcels = (s.lane l).parcels)
    (hf : (f (s.lane l)).feed = (s.lane l).feed)
    (ht : (f (s.lane l)).transfer.isSome = (s.lane l).transfer.isSome)
    (hl : (f (s.lane l)).launchRuns = (s.lane l).launchRuns)
    (hr : (f (s.lane l)).removal = (s.lane l).removal) : (s.modLane l f).atRest = true := by
  have lane : ∀ {α : Type} (g : LaneCtl → α), g (f (s.lane l)) = g (s.lane l) →
      ∀ m, g ((s.modLane l f).lane m) = g (s.lane m) := by
    intro α g hg m
    by_cases e : m = l
    · rw [e, State.modLane_lane_self, hg]
    · rw [State.modLane_lane_ne _ _ e]
  have ls := lane LaneCtl.state hs
  have lp := lane LaneCtl.parcels hp
  have lf := lane LaneCtl.feed hf
  have lt := lane (fun c => c.transfer.isSome) ht
  have ll := lane LaneCtl.launchRuns hl
  have lr := lane LaneCtl.removal hr
  refine State.atRest_of_same h (fun m => ?_) ?_ rfl
  · unfold State.restView
    rw [ls, lp, lf]
    rfl
  · unfold State.outputs perLane State.entryBeltRuns State.holdBeltRuns State.launchBeltRuns
    simp only [ls, lf, ll, lr, lt]
    rfl

theorem State.setCommandError_drive_atRest {s : State} (h : s.atRest = true) :
    s.setCommandError.drive.atRest = true := State.drive_atRest h fun _ => rfl

theorem State.refuseMessage_atRest {s : State} (h : s.atRest = true) : s.refuseMessage.atRest = true :=
  State.setCommandError_drive_atRest h

theorem State.restView_queueReport (s : State) (r : Report) (l : Lane) :
    (s.queueReport r).restView l = s.restView l := rfl

/-! ### Line, loop and lane commands -/

theorem State.hear_restsAt {s : State} (h : s.atRest = true) (f : FrameData) : RestsAt (s.hear f) := by
  refine State.unlessHeld_restsAt h ?_
  dsimp only
  split
  · split <;> exact State.settle_atRest _ _ _ _
  · exact h

theorem execReceivedFrameRejected_restsAt (bytes : List Byte) (stops : StopBits) (tenth : Bool) {s : State}
    (h : s.atRest = true) : RestsAt (execReceivedFrameRejected bytes stops tenth s) := by
  refine State.unlessHeld_restsAt h ?_
  dsimp only
  split
  · split
    · exact State.settle_atRest _ _ _ _
    · split <;> exact State.settle_atRest _ _ _ _
  · exact h

theorem State.beginAttempt_atRest {s : State} (h : s.atRest = true) : s.beginAttempt.atRest = true :=
  State.atRest_of_same h (fun _ => rfl) rfl rfl

theorem execFrameAttemptStart_restsAt {s : State} (h : s.atRest = true) :
    RestsAt (execFrameAttemptStart s) := by
  refine State.unlessHeld_restsAt h ?_
  split
  · split
    · split
      · exact State.settle_atRest _ _ _ _
      · exact State.beginAttempt_atRest h
    · exact h
  · exact h

theorem execAttemptCollision_restsAt (bit : Nat) {s : State} (h : s.atRest = true) :
    RestsAt (execAttemptCollision bit s) := by
  refine State.unlessHeld_restsAt h ?_
  split
  · split
    · split
      · exact State.settle_atRest _ _ _ _
      · exact h
    · exact h
  · exact h

theorem execBackoffExpired_restsAt {s : State} (h : s.atRest = true) : RestsAt (execBackoffExpired s) := by
  refine State.unlessHeld_restsAt h ?_
  split
  · split
    · exact State.modLine_atRest h _
    · exact h
  · exact h

theorem execLineHeld_restsAt {s : State} (h : s.atRest = true) : RestsAt (execLineHeld s) := by
  refine State.unlessHeld_restsAt h ?_
  split
  · split
    · exact State.settle_atRest _ _ _ _
    · exact h
  · exact h

theorem execFrameTxComplete_restsAt {s : State} (h : s.atRest = true) : RestsAt (execFrameTxComplete s) := by
  refine State.unlessHeld_restsAt h ?_
  split
  · split
    · exact State.settle_atRest _ _ _ _
    · exact h
  · exact h

theorem execEntryAbandoned_restsAt {s : State} (h : s.atRest = true) : RestsAt (execEntryAbandoned s) := by
  refine State.unlessHeld_restsAt h ?_
  split
  · exact State.settle_atRest _ _ _ _
  · exact h

/-- The Pace Generator's part of a window end changes the pace alone. -/
theorem State.paceTake_eq (s : State) : s.paceTake = s.modPace fun _ => s.paceTake.pace := by
  have lane : ∀ (u : State) (target : Option Nat) (l : Lane),
      u.paceLaneWindow target l = u.modPace fun _ => (u.paceLaneWindow target l).pace := by
    intro u target l
    unfold State.paceLaneWindow
    split <;> rfl
  unfold State.paceTake State.paceWindow
  generalize s.paceTarget = target
  dsimp only
  rw [lane _ _ .l1, lane _ _ .l0]
  generalize (State.paceLaneWindow _ _ .l1).pace = p
  split <;> rfl

theorem State.paceTake_noTransfer {s : State} {l : Lane} (h : s.NoTransfer l) : s.paceTake.NoTransfer l := by
  rw [State.paceTake_eq]
  exact h

theorem State.formSpeed_formMotion_noTransfer {s : State} {l : Lane} (h : s.NoTransfer l) :
    s.formSpeed.formMotion.NoTransfer l := by
  have speed : s.formSpeed.NoTransfer l := by
    unfold State.formSpeed
    dsimp only
    split <;> exact h
  unfold State.formMotion
  dsimp only
  split_ifs <;> exact speed

theorem execWindowEnd_restsAt {s : State} (h : s.atRest = true) : RestsAt (execWindowEnd s) := by
  refine State.unlessHeld_restsAt h (State.finish_atRest _ _ fun l => ?_)
  have k := State.formSpeed_formMotion_noTransfer (State.noTransfer_of_atRest h l)
  obtain ⟨n, e | e⟩ := s.formSpeed.formMotion.windowBlocks_cases <;> rw [e]
  · exact State.paceTake_noTransfer ((State.plannerWindow_planWork _).noTransfer k)
  · exact (State.plannerWindow_planWork _).noTransfer (State.paceTake_noTransfer k)

theorem execEncoderCount_restsAt (forward chk lvl : Bool) {s : State} (h : s.atRest = true) :
    RestsAt (execEncoderCount forward chk lvl s) := by
  refine State.unlessHeld_restsAt h ?_
  exact State.settle_atRest _ _ _ _

theorem execMarkerPulse_restsAt (chk lvl : Bool) {s : State} (h : s.atRest = true) :
    RestsAt (execMarkerPulse chk lvl s) := by
  refine State.unlessHeld_restsAt h ?_
  exact State.settle_atRest _ _ _ _

theorem execMeasurementLimit_restsAt (l : Lane) {s : State} (h : s.atRest = true) :
    RestsAt (execMeasurementLimit l s) := by
  refine State.unlessHeld_restsAt h ?_
  exact State.settle_atRest _ _ _ _

theorem execLeavingEnd_restsAt {s : State} (h : s.atRest = true) : RestsAt (execLeavingEnd s) := by
  refine State.unlessHeld_restsAt h ?_
  exact State.settle_atRest _ _ _ _

theorem execMarkerMissing_restsAt {s : State} (h : s.atRest = true) : RestsAt (execMarkerMissing s) := by
  refine State.unlessHeld_restsAt h ?_
  split
  · exact State.settle_atRest _ _ _ _
  · exact h

theorem State.setEntryEye_atRest {s : State} (h : s.atRest = true) (l : Lane) (b : Bool) :
    (s.setEntryEye l b).atRest = true := State.modPins_atRest h _

theorem State.setMergeEye_atRest {s : State} (h : s.atRest = true) (l : Lane) (b : Bool) :
    (s.setMergeEye l b).atRest = true := State.modPins_atRest h _

theorem execEntryEyeBlocked_restsAt (l : Lane) {s : State} (h : s.atRest = true) :
    RestsAt (execEntryEyeBlocked l s) := by
  have hp := State.setEntryEye_atRest h l true
  unfold execEntryEyeBlocked
  refine State.unlessHeld_restsAt hp ?_
  split
  · exact hp
  · split
    · exact State.settle_atRest _ _ _ _
    · exact hp

theorem execEntryEyeClear_restsAt (l : Lane) {s : State} (h : s.atRest = true) :
    RestsAt (execEntryEyeClear l s) := by
  have hp := State.setEntryEye_atRest h l false
  unfold execEntryEyeClear
  refine State.unlessHeld_restsAt hp ?_
  split
  · exact State.settle_atRest _ _ _ _
  · exact hp

theorem execBeltEncoderCount_restsAt (l : Lane) {s : State} (h : s.atRest = true) :
    RestsAt (execBeltEncoderCount l s) := by
  refine State.unlessHeld_restsAt h ?_
  split
  · dsimp only
    split
    · exact State.settle_atRest _ _ _ _
    · have e : ∀ c : LaneCtl, (c.countGap (s.cfgMinGap l)).countMeasure = { c with
          gapCount := (c.countGap (s.cfgMinGap l)).gapCount
          gapTest := (c.countGap (s.cfgMinGap l)).gapTest
          measure := (c.countGap (s.cfgMinGap l)).countMeasure.measure } := fun c => by
        rw [LaneCtl.countMeasure_eq, LaneCtl.countGap_eq]
      refine State.modLane_atRest h l ?_ ?_ ?_ ?_ ?_ ?_
      · rw [e]
      · rw [e]
      · rw [e]
      · rw [e]
      · rw [e]
        rfl
      · rw [e]
  · exact h

theorem execGapCountReached_restsAt (l : Lane) {s : State} (h : s.atRest = true) :
    RestsAt (execGapCountReached l s) := by
  refine State.unlessHeld_restsAt h ?_
  split
  · exact State.modLane_atRest h l rfl rfl rfl rfl rfl rfl
  · exact h

theorem execHoldEyeBlocked_restsAt (l : Lane) {s : State} (h : s.atRest = true) :
    RestsAt (execHoldEyeBlocked l s) := by
  refine State.unlessHeld_restsAt h ?_
  split
  · split
    · exact State.settle_atRest _ _ _ _
    · exact h
  · exact h

theorem execLaunchEyeBlocked_restsAt (l : Lane) {s : State} (h : s.atRest = true) :
    RestsAt (execLaunchEyeBlocked l s) := by
  refine State.unlessHeld_restsAt h ?_
  split
  · exact State.settle_atRest _ _ _ _
  · exact h

theorem execTransferTimeout_restsAt (l : Lane) {s : State} (h : s.atRest = true) :
    RestsAt (execTransferTimeout l s) := by
  refine State.unlessHeld_restsAt h ?_
  split
  · exact State.settle_atRest _ _ _ _
  · exact h

theorem execMergeTimeout_restsAt (l : Lane) {s : State} (h : s.atRest = true) :
    RestsAt (execMergeTimeout l s) := by
  refine State.unlessHeld_restsAt h ?_
  split
  · exact State.settle_atRest _ _ _ _
  · exact h

/-- Whether a launch runs reads its aborted mark alone. -/
theorem LaneCtl.launchRuns_congr {c d : LaneCtl} (h : d.launch.map Launch.aborted = c.launch.map Launch.aborted) :
    d.launchRuns = c.launchRuns := by
  have e : ∀ c : LaneCtl, c.launchRuns = ((c.launch.map Launch.aborted) == some false) := fun c => by
    unfold LaneCtl.launchRuns
    cases c.launch with
    | none => rfl
    | some e => cases ha : e.aborted <;> simp [ha]
  rw [e, e, h]

/-- R94: merge-seen leaves a launch running or not as it is. -/
theorem LaneCtl.seeMerge_launchRuns (c : LaneCtl) : c.seeMerge.launchRuns = c.launchRuns := by
  refine LaneCtl.launchRuns_congr ?_
  unfold LaneCtl.seeMerge
  cases c.launch with
  | none => rfl
  | some e => cases ha : e.aborted <;> simp [ha]

theorem execMergeEyeBlocked_restsAt (l : Lane) {s : State} (h : s.atRest = true) :
    RestsAt (execMergeEyeBlocked l s) :=
  State.unlessHeld_restsAt (State.setMergeEye_atRest h l true)
    (State.modLane_atRest (f := LaneCtl.seeMerge) (State.setMergeEye_atRest h l true) l rfl rfl rfl rfl
      (LaneCtl.seeMerge_launchRuns _) rfl)

theorem execMergeEyeClear_restsAt (l : Lane) {s : State} (h : s.atRest = true) :
    RestsAt (execMergeEyeClear l s) := by
  have hp := State.setMergeEye_atRest h l false
  unfold execMergeEyeClear
  refine State.unlessHeld_restsAt hp ?_
  split
  · split
    · exact State.settle_atRest _ _ _ _
    · exact hp
  · exact hp

theorem State.setFilter_atRest {s : State} (h : s.atRest = true) (l : Lane) (n : Nat) :
    (s.modLane l fun c => { c with buttonFilter := n }).atRest = true :=
  State.modLane_atRest h l rfl rfl rfl rfl rfl rfl

theorem execButtonPress_restsAt (l : Lane) {s : State} (h : s.atRest = true) :
    RestsAt (execButtonPress l s) := by
  have hp : (s.modPins fun p => { p with button := p.button.set l true }).atRest = true :=
    State.modPins_atRest h _
  unfold execButtonPress
  refine State.unlessHeld_restsAt hp ?_
  dsimp only
  split
  · exact State.settle_atRest _ _ _ _
  · exact State.setFilter_atRest hp l 0

/-- A change of a pace's lamp timers, the output lines driven after it. -/
theorem State.lamp_drive_atRest {s : State} (h : s.atRest = true) (l : Lane) {f : PaceLane → PaceLane}
    (hv : ∀ p, (f p).valid = p.valid) (ha : ∀ p, (f p).aspect = p.aspect) :
    (s.modPaceLane l f).drive.atRest = true := by
  refine State.drive_atRest h fun m => ?_
  unfold State.restView
  cases l <;> cases m <;> simp [State.modPaceLane, Two.get, Two.set, hv, ha] <;> rfl

theorem execGoPulse_restsAt (l : Lane) {s : State} (h : s.atRest = true) : RestsAt (execGoPulse l s) :=
  State.unlessHeld_restsAt h (State.lamp_drive_atRest h l
    (fun p => by unfold PaceLane.pulseDue; split <;> rfl) (fun p => by unfold PaceLane.pulseDue; split <;> rfl))

theorem execGoPulseEnd_restsAt (l : Lane) {s : State} (h : s.atRest = true) : RestsAt (execGoPulseEnd l s) :=
  State.unlessHeld_restsAt h (State.lamp_drive_atRest h l
    (fun p => by split <;> rfl) (fun p => by split <;> rfl))

theorem execWaitBlink_restsAt (l : Lane) {s : State} (h : s.atRest = true) : RestsAt (execWaitBlink l s) :=
  State.unlessHeld_restsAt h (State.lamp_drive_atRest h l
    (fun p => by split <;> rfl) (fun p => by split <;> rfl))

/-! ### Messages -/

/-- A scan taken changes no place and no name of a record. -/
theorem State.giveScan_restView (s : State) (l : Lane) (t : Tag) (sc : Scan) (m : Lane) :
    (s.modLane l fun c => c.giveScan t sc).restView m = s.restView m := by
  have hp : ((s.lane l).giveScan t sc).parcels.map (fun r => (r.place, r.named.isNone)) =
      (s.lane l).parcels.map fun r => (r.place, r.named.isNone) := by
    simp only [LaneCtl.giveScan, LaneCtl.modParcel, List.map_map]
    refine List.map_congr_left fun r _ => ?_
    dsimp only [Function.comp]
    split <;> rfl
  by_cases e : m = l
  · subst e
    unfold State.restView
    rw [State.modLane_lane_self, hp]
    rfl
  · unfold State.restView
    rw [State.modLane_lane_ne _ _ e]
    rfl

theorem State.takeScan_restView (s : State) (l : Lane) (sc : Scan) (m : Lane) :
    (s.takeScan l sc).restView m = s.restView m := by
  have place : (s.placeScan l sc).restView m = s.restView m := by
    unfold State.placeScan
    dsimp only
    split
    · rfl
    · split
      · exact s.giveScan_restView l _ sc m
      · cases l <;> cases m <;> rfl
  unfold State.takeScan
  split
  · exact place
  · exact place
  · exact place
  · rfl
  · rfl

/-- What a lane message does is done of a lane, or refused. -/
theorem State.onLane_atRest {s : State} (h : s.atRest = true) (b : Byte) {act : Lane → State}
    (k : ∀ l, (act l).atRest = true) : (s.onLane b act).atRest = true := by
  unfold State.onLane
  split
  · exact k _
  · exact State.refuseMessage_atRest h

theorem State.resetBlocks_atRest (s : State) : s.resetBlocks.atRest = true := by
  have h : State.reset.atRest = true := by decide +kernel
  exact State.atRest_of_same h (fun _ => rfl) rfl rfl

theorem State.actReset_atRest (s : State) : s.actReset.atRest = true :=
  State.modPort_atRest s.resetBlocks_atRest rfl

theorem State.act_atRest {s : State} (h : s.atRest = true) (m : Message) : (s.act m).atRest = true := by
  have refused := State.refuseMessage_atRest h
  cases m with
  | scan lane id chute flags =>
    exact State.onLane_atRest h lane fun l => State.drive_atRest h (s.takeScan_restView l _)
  | start lane =>
    refine State.onLane_atRest h lane fun l => ?_
    split
    · exact State.settle_atRest _ _ _ _
    · exact refused
  | stop lane => exact State.onLane_atRest h lane fun l => State.settle_atRest _ _ _ _
  | pause lane =>
    refine State.onLane_atRest h lane fun l => ?_
    split
    · exact State.settle_atRest _ _ _ _
    · exact h
    all_goals exact refused
  | resume lane =>
    refine State.onLane_atRest h lane fun l => ?_
    split
    · exact State.settle_atRest _ _ _ _
    · exact State.settle_atRest _ _ _ _
    all_goals exact refused
  | setPointer index =>
    show (s.actSetPointer index).atRest = true
    unfold State.actSetPointer
    split
    · exact State.atRest_of_same h (fun _ => rfl) rfl rfl
    · exact refused
  | loadWord value => exact State.atRest_of_same h (fun _ => rfl) rfl rfl
  | loadWordNext value => exact State.atRest_of_same h (fun _ => rfl) rfl rfl
  | apply =>
    have begun : s.online = false → (s.modTable ConfigTable.beginApply).drive.atRest = true := by
      intro ho
      refine State.drive_atRest h fun l => ?_
      unfold State.restView
      rw [ho]
      rfl
    have late : (s.setCommandError.queueReport (.applyResult .wrongState)).drive.atRest = true :=
      State.drive_atRest h fun _ => rfl
    show s.actApply.atRest = true
    unfold State.actApply
    split
    · rename_i hst
      exact begun (by simp [State.online, hst])
    · rename_i hst
      exact begun (by simp [State.online, hst])
    all_goals exact late
  | join =>
    show s.actJoin.atRest = true
    unfold State.actJoin
    split
    · exact State.settle_atRest _ _ _ _
    · exact refused
  | leave =>
    show s.actLeave.atRest = true
    unfold State.actLeave
    split
    · exact State.settle_atRest _ _ _ _
    · exact refused
  | readTray tray =>
    show (s.actReadTray tray).atRest = true
    unfold State.actReadTray
    split
    · exact State.drive_atRest h fun _ => rfl
    · exact refused
  | clearDefect tray =>
    show (s.actClearDefect tray).atRest = true
    unfold State.actClearDefect State.clearRecord
    split
    · split
      · split
        · split
          · rw [recond_eq]
            exact State.atRest_of_same h (fun _ => rfl) rfl rfl
          · exact h
        · exact h
      · exact h
    · exact refused
  | identify => exact State.drive_atRest h fun _ => rfl
  | clearFlags => exact State.drive_atRest h fun _ => rfl
  | reset => exact s.actReset_atRest

theorem State.takeMessage_atRest {s : State} (h : s.atRest = true) (m : Message) :
    (s.takeMessage m).atRest = true := by
  unfold State.takeMessage
  split
  · exact State.refuseMessage_atRest h
  · exact State.act_atRest h m

/-! ### Port commands -/

theorem State.shiftOut_atRest {s : State} (h : s.atRest = true) (b : Byte) : (s.shiftOut b).atRest = true :=
  State.modPort_atRest h rfl

theorem State.setSelect_atRest {s : State} (h : s.atRest = true) (v : Select) :
    (s.setSelect v).atRest = true := State.modPort_atRest h rfl

theorem execTransactionByte_restsAt (byte : Byte) {s : State} (h : s.atRest = true) :
    RestsAt (execTransactionByte byte s) := by
  refine State.unlessHeld_restsAt h ?_
  have hs := State.shiftOut_atRest h 0
  dsimp only
  split_ifs
  · exact State.setSelect_atRest hs _
  · exact State.setSelect_atRest hs _
  · exact State.setSelect_atRest hs _
  · exact State.setCommandError_drive_atRest (State.setSelect_atRest hs _)
  · exact h

theorem State.putInbound_restView (s : State) (byte : Byte) (l : Lane) :
    (s.putInbound byte).restView l = s.restView l := by
  unfold State.putInbound
  split <;> rfl

theorem State.takeReport_restView (s : State) (l : Lane) : s.takeReport.restView l = s.restView l := by
  unfold State.takeReport
  split
  · rfl
  · split <;> rfl

theorem execPutByte_restsAt (byte : Byte) {s : State} (h : s.atRest = true) : RestsAt (execPutByte byte s) := by
  refine State.unlessHeld_restsAt h ?_
  split
  · exact State.drive_atRest h fun l => State.putInbound_restView _ _ l
  · exact State.shiftOut_atRest h _
  · exact State.shiftOut_atRest h _
  all_goals exact h

theorem execTakeByte_restsAt {s : State} (h : s.atRest = true) : RestsAt (execTakeByte s) := by
  refine State.unlessHeld_restsAt h ?_
  split
  · exact State.drive_atRest h s.takeReport_restView
  · exact State.shiftOut_atRest h _
  · exact State.shiftOut_atRest h _
  all_goals exact h

theorem State.assemble_atRest {s : State} (h : s.atRest = true) (a : Assembly) :
    (s.assemble a).atRest = true := by
  have ended : (s.modPort fun p => { p with assembly := none }).atRest = true := State.modPort_atRest h rfl
  unfold State.assemble
  split
  · dsimp only
    split
    · exact State.takeMessage_atRest ended _
    · exact ended
  · exact State.modPort_atRest h rfl

theorem execParserByte_restsAt {s : State} (h : s.atRest = true) : RestsAt (execParserByte s) := by
  refine State.unlessHeld_restsAt h ?_
  split
  · exact h
  · rename_i b rest _
    have read : (s.modPort fun p => { p with inbound := rest }).atRest = true := State.modPort_atRest h rfl
    unfold State.parse
    split
    · exact State.assemble_atRest read _
    · split
      · exact State.assemble_atRest read _
      · exact State.setCommandError_drive_atRest read

theorem execApplyComplete_restsAt {s : State} (h : s.atRest = true) : RestsAt (execApplyComplete s) := by
  refine State.unlessHeld_restsAt h ?_
  split
  · split
    · exact State.settle_atRest _ _ _ _
    · exact h
  · exact h

/-! ### Every command, and the tick -/

theorem State.unlessHeld_takeMessage_restsAt {s : State} (h : s.atRest = true) (m : Message) :
    RestsAt (s.unlessHeld fun s => s.takeMessage m) :=
  State.unlessHeld_restsAt h (State.takeMessage_atRest h m)

/-- Every command answers a next state at rest. -/
theorem exec_restsAt (i : Instr) {s : State} (h : s.atRest = true) : RestsAt (exec i s) := by
  cases i with
  | encoderCount => exact execEncoderCount_restsAt _ _ _ h
  | markerPulse => exact execMarkerPulse_restsAt _ _ h
  | markerMissing => exact execMarkerMissing_restsAt h
  | windowEnd => exact execWindowEnd_restsAt h
  | yieldChange => exact ⟨_, rfl, State.modPins_atRest h _⟩
  | receivedFrameRejected => exact execReceivedFrameRejected_restsAt _ _ _ h
  | claimHeard | releaseHeard | loadedHeard | occupiedHeard | defectHeard => exact State.hear_restsAt h _
  | frameAttemptStart => exact execFrameAttemptStart_restsAt h
  | attemptCollision => exact execAttemptCollision_restsAt _ h
  | backoffExpired => exact execBackoffExpired_restsAt h
  | lineHeld => exact execLineHeld_restsAt h
  | frameTxComplete => exact execFrameTxComplete_restsAt h
  | entryAbandoned => exact execEntryAbandoned_restsAt h
  | entryEyeBlocked => exact execEntryEyeBlocked_restsAt _ h
  | entryEyeClear => exact execEntryEyeClear_restsAt _ h
  | beltEncoderCount => exact execBeltEncoderCount_restsAt _ h
  | gapCountReached => exact execGapCountReached_restsAt _ h
  | measurementLimit => exact execMeasurementLimit_restsAt _ h
  | holdEyeBlocked => exact execHoldEyeBlocked_restsAt _ h
  | launchEyeBlocked => exact execLaunchEyeBlocked_restsAt _ h
  | transferTimeout => exact execTransferTimeout_restsAt _ h
  | mergeEyeBlocked => exact execMergeEyeBlocked_restsAt _ h
  | mergeEyeClear => exact execMergeEyeClear_restsAt _ h
  | mergeTimeout => exact execMergeTimeout_restsAt _ h
  | buttonPress => exact execButtonPress_restsAt _ h
  | buttonFilterElapsed l =>
    have hp := State.modPins_atRest h fun p => { p with button := p.button.set l false }
    exact State.unlessHeld_restsAt (event := fun u => u.modLane l fun c => { c with
      buttonFilter := Config.filterMs }) hp (State.setFilter_atRest hp l Config.filterMs)
  | goPulse => exact execGoPulse_restsAt _ h
  | goPulseEnd => exact execGoPulseEnd_restsAt _ h
  | waitBlink => exact execWaitBlink_restsAt _ h
  | transactionByte => exact execTransactionByte_restsAt _ h
  | putByte => exact execPutByte_restsAt _ h
  | takeByte => exact execTakeByte_restsAt h
  | parserByte => exact execParserByte_restsAt h
  | scan | start | stop | pause | resume | setPointer | loadWord | loadWordNext | apply | join | leave |
    readTray | clearDefect | identify | clearFlags | reset => exact State.unlessHeld_takeMessage_restsAt h _
  | applyComplete => exact execApplyComplete_restsAt h
  | leavingEnd => exact execLeavingEnd_restsAt h
  | resetLine => exact ⟨_, rfl, State.modPins_atRest s.resetBlocks_atRest _⟩
  | selectPeriodStart =>
    have hp := State.modPins_atRest h fun p => { p with scsLow := true }
    refine State.unlessHeld_restsAt (event := fun u => if s.pins.scsLow then u else u.setSelect .awaiting) hp ?_
    split
    · exact hp
    · exact State.setSelect_atRest hp _
  | selectPeriodEnd =>
    have hp := State.modPins_atRest h fun p => { p with scsLow := false }
    exact State.unlessHeld_restsAt (event := fun u => u.setSelect .idle) hp (State.setSelect_atRest hp .idle)
  | resetLineReleased => exact ⟨_, rfl, State.modPins_atRest h _⟩
  | receiverEntersHunting =>
    refine State.unlessHeld_restsAt h ?_
    split
    · exact State.modLine_atRest h _
    · exact h

/-- 8.1: every interval of the cadence is well above the length of a pulse. -/
theorem interval_ge (i : Nat) : 500 ≤ interval i := by
  unfold interval
  by_cases h : i < 16
  · interval_cases i <;> decide
  · have : Config.cadence[i]? = none := List.getElem?_eq_none (by simpa [Config.cadence] using h)
    rw [this]
    decide

/-- R143, R144: a lamp's timer at a tick moves to no other side of its limit; its command does. -/
theorem PaceLane.pulseTick_goLit (p : PaceLane) (b : Nat) :
    ({ p with pulse := p.pulseTick, blink := b } : PaceLane).goLit = p.goLit := by
  have hi := interval_ge p.index
  show (p.aspect == .go && decide (p.pulseTick < 250)) = (p.aspect == .go && decide (p.pulse < 250))
  rcases p.pulseTick_cases with ⟨-, e⟩ | ⟨hd, e⟩ | ⟨hg, hd, he, e⟩
  · rw [e]
  · simp only [PaceLane.goDue, Bool.and_eq_true, beq_iff_eq, decide_eq_true_eq] at hd
    have h1 : ¬ p.pulseTick < 250 := by omega
    have h2 : ¬ p.pulse < 250 := by omega
    rw [decide_eq_false h1, decide_eq_false h2]
  · have : ¬ p.pulse + 1 = 250 := by
      simpa [PaceLane.goEndDue, hg, hd, Config.pulseMs] using he
    rw [e]
    congr 1
    exact decide_eq_decide.2 (by omega)

theorem PaceLane.blinkTick_stopLit (p : PaceLane) (n : Nat) :
    ({ p with
      pulse := n
      blink := if p.aspect = .wait && !p.blinkDue then p.blink + 1 else p.blink } : PaceLane).stopLit =
      p.stopLit := by
  unfold PaceLane.stopLit
  dsimp only [Config.pulseMs]
  split
  · rename_i h
    have : ¬ p.blink + 1 = 250 := by
      simp only [Bool.and_eq_true, decide_eq_true_eq, Bool.not_eq_true'] at h
      have hb := h.2
      simp only [PaceLane.blinkDue, h.1, Config.pulseMs] at hb
      intro e
      simp [e] at hb
    have hk : decide (p.blink + 1 < 250) = decide (p.blink < 250) := decide_eq_decide.2 (by omega)
    exact congrArg _ (congrArg _ hk)
  · rfl

/-- Lamp timers moved to no other side of their limits. -/
theorem State.lampTick_atRest {s : State} (h : s.atRest = true) (l : Lane) (f g : PaceLane → Nat)
    (hf : ∀ (p : PaceLane) n, ({ p with pulse := f p, blink := n } : PaceLane).goLit = p.goLit)
    (hg : ∀ (p : PaceLane) n, ({ p with pulse := n, blink := g p } : PaceLane).stopLit = p.stopLit) :
    (s.modPaceLane l fun p => { p with pulse := f p, blink := g p }).atRest = true := by
  have other : ∀ m, m ≠ l → (s.modPaceLane l fun p => { p with pulse := f p, blink := g p }).pace.lanes.get m =
      s.pace.lanes.get m := fun m hm => Two.get_set_ne _ _ hm
  have own : (s.modPaceLane l fun p => { p with pulse := f p, blink := g p }).pace.lanes.get l =
      { s.pace.lanes.get l with pulse := f (s.pace.lanes.get l), blink := g (s.pace.lanes.get l) } := by
    cases l <;> rfl
  have same : ∀ {α : Type} (k : PaceLane → α), k { s.pace.lanes.get l with
      pulse := f (s.pace.lanes.get l), blink := g (s.pace.lanes.get l) } = k (s.pace.lanes.get l) →
      ∀ m, k ((s.modPaceLane l fun p => { p with pulse := f p, blink := g p }).pace.lanes.get m) =
        k (s.pace.lanes.get m) := by
    intro α k hk m
    by_cases e : m = l
    · rw [e, own, hk]
    · rw [other m e]
  refine State.atRest_of_same h (fun m => ?_) ?_ rfl
  · unfold State.restView
    rw [same PaceLane.valid rfl, same PaceLane.aspect rfl]
    rfl
  · have hgo := funext (same PaceLane.goLit (hf _ _))
    have hstop := funext (same PaceLane.stopLit (hg _ _))
    unfold State.outputs
    rw [hgo, hstop]
    rfl

theorem State.tickStation_atRest {s : State} (h : s.atRest = true) : s.tickStation.atRest = true :=
  State.atRest_of_same h (fun _ => rfl) rfl rfl

theorem State.tickLane_atRest {s : State} (h : s.atRest = true) (l : Lane) : (s.tickLane l).atRest = true := by
  have hl : (s.modLane l fun c => { c with
      transfer := if s.transferDue l then c.transfer else c.transfer.map (· + 1)
      launch := if s.mergeDue l then c.launch
        else c.launch.map fun e => if e.aborted then e else { e with timer := e.timer + 1 }
      buttonFilter := if s.filterRuns l && !s.filterDue l then c.buttonFilter + 1
        else c.buttonFilter }).atRest = true := by
    refine State.modLane_atRest h l rfl rfl rfl ?_ ?_ rfl
    · dsimp only
      split
      · rfl
      · exact Option.isSome_map
    · refine LaneCtl.launchRuns_congr ?_
      dsimp only
      split
      · rfl
      · cases (s.lane l).launch with
        | none => rfl
        | some e => cases ha : e.aborted <;> simp [ha]
  exact State.lampTick_atRest hl l (fun p => p.pulseTick)
    (fun p => if p.aspect = .wait && !p.blinkDue then p.blink + 1 else p.blink)
    (fun p n => p.pulseTick_goLit n) fun p n => p.blinkTick_stopLit n

theorem State.tickMs_atRest {s : State} (h : s.atRest = true) : s.tickMs.atRest = true := by
  have h0 : (s.afterOrder s.due).atRest = true := by
    rw [State.afterOrder_eq]
    exact State.atRest_of_same h (fun _ => rfl) rfl rfl
  have h1 := State.tickLane_atRest (State.tickLane_atRest (State.tickStation_atRest h0) .l0) .l1
  unfold State.tickMs
  generalize ((s.afterOrder s.due).tickStation.tickLane .l0).tickLane .l1 = u at h1 ⊢
  exact State.atRest_of_same h1 (fun _ => rfl) rfl rfl

/-- Settles O9: a command ends at rest, by its `settle`, by driving the output lines or by leaving what rest reads,
and a tick moves no timer past a limit. -/
theorem stepLeavesLanesAtRest : Obligations.StepLeavesLanesAtRest := by
  intro s t h hn
  unfold step at hn
  split at hn
  · rename_i i rest hp
    have h0 : (s.withPending rest).atRest = true := State.atRest_of_same h (fun _ => rfl) rfl rfl
    obtain ⟨u, e, k⟩ := exec_restsAt i h0
    rw [e] at hn
    cases hn
    exact k
  · cases hn
    split
    · exact h
    · exact State.tickMs_atRest h

end Sys2Proof.Machine
end

section
/-! SUPPORT and PROOFS of the step and of reset (00_scope.md, R16, R21, R66, R107, R118, R145, R151, R166): O1, O2
and O3. -/

namespace Sys2Proof.Machine

/-- Settles O1: the step's branch for a queue that is not empty. -/
theorem stepRunsFrontCommand : Obligations.StepRunsFrontCommand := by
  intro c rest s h
  unfold step
  rw [h]
  rfl

/-- Settles O3: each test evaluated on the reset state. -/
theorem resetStateMeetsEveryInvariant : Obligations.ResetStateMeetsEveryInvariant := by
  unfold Obligations.ResetStateMeetsEveryInvariant
  decide +kernel

/-- R151, R166: while RSTN is asserted an event changes nothing. -/
theorem State.unlessHeld_of_rstLow {u : State} (h : u.pins.rstLow = true) (event : State → State) :
    u.unlessHeld event = .next u := by
  simp [State.unlessHeld, h]

/-- R149: RESET is acted on in every station state. -/
theorem State.takeMessage_reset (s : State) : s.takeMessage .reset = s.actReset := by
  unfold State.takeMessage
  rw [if_neg (by simp)]
  rfl

/-- While RSTN is asserted a command changes levels of input lines alone. -/
theorem exec_of_rstLow {s : State} (h : s.pins.rstLow = true) (c : Instr) (h1 : c ≠ .resetLine)
    (h2 : c ≠ .resetLineReleased) : ∃ p, exec c s = .next { s with pins := p } ∧ p.rstLow = true := by
  have levels : ∀ (f : Pins → Pins) (event : State → State), (f s.pins).rstLow = s.pins.rstLow →
      ∃ p, (s.modPins f).unlessHeld event = .next { s with pins := p } ∧ p.rstLow = true :=
    fun f event hf => ⟨f s.pins, State.unlessHeld_of_rstLow (u := s.modPins f) (hf.trans h) event, hf.trans h⟩
  cases c with
  | resetLine => exact absurd rfl h1
  | resetLineReleased => exact absurd rfl h2
  | yieldChange b => exact ⟨{ s.pins with yieldIn := b }, rfl, h⟩
  | entryEyeBlocked l =>
    unfold exec execEntryEyeBlocked
    exact levels (fun p => { p with entryEye := p.entryEye.set l true }) _ rfl
  | entryEyeClear l =>
    unfold exec execEntryEyeClear
    exact levels (fun p => { p with entryEye := p.entryEye.set l false }) _ rfl
  | mergeEyeBlocked l =>
    unfold exec execMergeEyeBlocked
    exact levels (fun p => { p with mergeEye := p.mergeEye.set l true }) _ rfl
  | mergeEyeClear l =>
    unfold exec execMergeEyeClear
    exact levels (fun p => { p with mergeEye := p.mergeEye.set l false }) _ rfl
  | buttonPress l =>
    unfold exec execButtonPress
    exact levels (fun p => { p with button := p.button.set l true }) _ rfl
  | buttonFilterElapsed l =>
    unfold exec execButtonFilterElapsed
    exact levels (fun p => { p with button := p.button.set l false }) _ rfl
  | selectPeriodStart =>
    unfold exec execSelectPeriodStart
    exact levels (fun p => { p with scsLow := true }) _ rfl
  | selectPeriodEnd =>
    unfold exec execSelectPeriodEnd
    exact levels (fun p => { p with scsLow := false }) _ rfl
  | _ =>
    unfold exec
    exact ⟨s.pins, State.unlessHeld_of_rstLow (u := s) h _, h⟩

/-- Settles O2: RESET acts, RESET_LINE resets, and RSTN then holds the part. -/
theorem resetRestoresEveryBlock : Obligations.ResetRestoresEveryBlock := by
  refine ⟨fun s h => ?_, fun s => ⟨_, rfl, rfl, rfl, rfl⟩, fun c s h h1 h2 => exec_of_rstLow h c h1 h2, fun _ => rfl⟩
  have e : exec .reset s = .next (s.takeMessage .reset) :=
    State.unlessHeld_of_rstHigh h fun s => s.takeMessage .reset
  rw [e, State.takeMessage_reset]
  exact ⟨_, rfl, rfl, rfl, rfl⟩

end Sys2Proof.Machine
end

section
/-! SUPPORT and PROOFS of the local port (09_the_local_port.md, 10_configuration_and_station_states.md 10.3 and 10.4):
O48, O49 and O53. -/

namespace Sys2Proof.Machine

/-- Every message command is its message taken, or nothing while RSTN is asserted (log 34). -/
theorem exec_messageOf {c : Instr} {m : Message} (h : messageOf c = some m) (s : State) :
    exec c s = s.unlessHeld fun s => s.takeMessage m := by
  cases c <;> cases h <;> rfl

/-- R149: a message acted on, outside a reset on the line and outside APPLYING. -/
theorem exec_messageOf_act {c : Instr} {m : Message} (h : messageOf c = some m) {s : State}
    (hr : s.pins.rstLow = false) (hst : s.table.station ≠ .applying) : exec c s = .next (s.act m) := by
  rw [exec_messageOf h, State.unlessHeld_takeMessage hr hst]

/-- Settles O49: the message commands name their messages, and `takeMessage` refuses all but RESET while APPLYING. -/
theorem busyStationDiscardsMessages : Obligations.BusyStationDiscardsMessages := by
  intro c m s h hr
  rw [exec_messageOf h]
  refine ⟨State.unlessHeld_of_rstHigh hr _, fun hst hm => ?_⟩
  rw [State.unlessHeld_takeMessage_of_applying hr hst hm, State.refuseMessage_eq]
  exact ⟨_, rfl⟩

/-! ### Words and APPLY (R158, R159) -/

theorem wordAt_set (w : Words) {n : Nat} (hn : n < 48) (v : Word) (j : Nat) :
    wordAt (w.setIfInBounds n v) j = if j = n then v else wordAt w j := by
  unfold wordAt
  by_cases h : j = n
  · subst h
    simp [hn]
  · simp [h, Vector.getElem?_setIfInBounds_ne (Ne.symm h)]

/-- Settles O53: the three word messages and the branches of APPLY. -/
theorem configurationMessagesWriteAndApply : Obligations.ConfigurationMessagesWriteAndApply := by
  intro s hr
  refine ⟨fun hst hp => ⟨fun i hi => ?_, fun i hi => ?_, fun v => ?_, fun v => ?_⟩, fun hst => ?_, fun hst => ?_⟩
  · rw [exec_messageOf_act rfl hr hst]
    exact congrArg Host.Outcome.next (if_pos hi)
  · rw [exec_messageOf_act rfl hr hst]
    exact ⟨_, congrArg Host.Outcome.next ((if_neg (Nat.not_lt.2 hi)).trans s.refuseMessage_eq)⟩
  · rw [exec_messageOf_act rfl hr hst]
    exact ⟨_, rfl, wordAt_set _ hp v⟩
  · rw [exec_messageOf_act rfl hr hst]
    refine ⟨s.table.working.setIfInBounds s.table.pointer v, congrArg Host.Outcome.next ?_, wordAt_set _ hp v⟩
    have e : (s.table.pointer + 1) % 48 = if s.table.pointer = 47 then 0 else s.table.pointer + 1 := by
      split <;> omega
    rw [← e]
    rfl
  · have hst' : s.table.station ≠ .applying := by rcases hst with h | h <;> simp [h]
    rw [exec_messageOf_act rfl hr hst']
    have e : s.act .apply = (s.modTable ConfigTable.beginApply).drive := by
      rcases hst with h | h <;> simp [State.act, State.actApply, h]
    exact ⟨_, congrArg Host.Outcome.next e⟩
  · have hst' : s.table.station ≠ .applying := by rcases hst with h | h <;> simp [h]
    rw [exec_messageOf_act rfl hr hst']
    have e : s.act .apply = (s.setCommandError.queueReport (.applyResult .wrongState)).drive := by
      rcases hst with h | h <;> simp [State.act, State.actApply, h]
    exact ⟨_, congrArg Host.Outcome.next e⟩

/-! ### Select periods and byte slots (R146, R147, R153, R154) -/

/-- Seven flags in seven bits. -/
theorem flagBits_getLsbD (a b c d e f g : Bool) :
    let v := BitVec.ofNat 8 (flagBit a 0 + flagBit b 1 + flagBit c 2 + flagBit d 3 + flagBit e 4 + flagBit f 5 +
      flagBit g 6)
    v.getLsbD 0 = a ∧ v.getLsbD 1 = b ∧ v.getLsbD 2 = c ∧ v.getLsbD 3 = d ∧ v.getLsbD 4 = e ∧
      v.getLsbD 5 = f ∧ v.getLsbD 6 = g ∧ v.getLsbD 7 = false := by
  revert a b c d e f g
  decide

theorem exec_selectPeriodStart {s : State} (hr : s.pins.rstLow = false) : exec .selectPeriodStart s = .next
    (if s.pins.scsLow then s.modPins fun p => { p with scsLow := true }
      else (s.modPins fun p => { p with scsLow := true }).setSelect .awaiting) :=
  State.unlessHeld_of_rstHigh (s := s.modPins fun p => { p with scsLow := true }) hr fun u =>
    if s.pins.scsLow then u else u.setSelect .awaiting

theorem exec_transactionByte_awaiting {s : State} (hr : s.pins.rstLow = false) (hs : s.port.select = .awaiting)
    (byte : Byte) : exec (.transactionByte byte) s = .next
      (if byte = 0xA0 then (s.shiftOut 0).setSelect .put
      else if byte = 0xA1 then (s.shiftOut 0).setSelect .take
      else if byte = 0xA2 then (s.shiftOut 0).setSelect .status
      else (((s.shiftOut 0).setSelect .ignoring).setCommandError).drive) := by
  unfold exec execTransactionByte
  refine (State.unlessHeld_of_rstHigh hr _).trans ?_
  rw [if_pos hs]

theorem exec_putByte_put {s : State} (hr : s.pins.rstLow = false) (hs : s.port.select = .put) (byte : Byte) :
    exec (.putByte byte) s = .next ((s.shiftOut 0).putInbound byte).drive := by
  unfold exec execPutByte
  refine (State.unlessHeld_of_rstHigh hr _).trans ?_
  simp only [hs]

theorem exec_takeByte_take {s : State} (hr : s.pins.rstLow = false) (hs : s.port.select = .take) :
    exec .takeByte s = .next s.takeReport.drive := by
  unfold exec execTakeByte
  refine (State.unlessHeld_of_rstHigh hr _).trans ?_
  simp only [hs]

theorem exec_takeByte_status {s : State} (hr : s.pins.rstLow = false) (hs : s.port.select = .status) :
    exec .takeByte s = .next (s.shiftOut s.statusByte) := by
  unfold exec execTakeByte
  refine (State.unlessHeld_of_rstHigh hr _).trans ?_
  simp only [hs]

/-- R147: a byte into an inbound FIFO with room, and a byte dropped at a full one. -/
theorem State.putInbound_of_room {s : State} (h : s.port.inbound.length < 64) (b : Byte) :
    s.putInbound b = s.modPort fun p => { p with inbound := p.inbound ++ [b] } := if_pos h

theorem State.putInbound_of_full {s : State} (h : 64 ≤ s.port.inbound.length) (b : Byte) :
    s.putInbound b = s.setCommandError := if_neg (Nat.not_lt.2 h)

/-- R153: a TAKE slot with a report waiting, the station not APPLYING. -/
theorem State.takeReport_of_cons {s : State} {b : Byte} {rest : List Byte} (h : s.rep.fifo = b :: rest)
    (hb : s.busy = false) : s.takeReport = (s.shiftOut b).modRep fun p => { p with fifo := rest } := by
  simp [State.takeReport, h, hb]

/-- R153: a TAKE slot sends 0x00 from an empty FIFO and from a busy station. -/
theorem State.takeReport_of_none {s : State} (h : s.busy = true ∨ s.rep.fifo = []) :
    s.takeReport = s.shiftOut 0 := by
  unfold State.takeReport
  split
  · rfl
  · rename_i he
    exact if_pos (h.resolve_right (by rw [he]; exact List.cons_ne_nil _ _))

/-- R155: with COMMAND_ERROR set and enabled ATTN is driven low. -/
theorem State.attnLow_of_commandError {s : State} (h : s.port.commandError = true) (he : bitAt (s.cw 47) 1 = true) :
    s.attnLow = true := by
  simp [State.attnLow, h, he]

/-- Settles O48: each select state's branch of the three byte commands. -/
theorem portPeriodsAndSlotsMoveBytes : Obligations.PortPeriodsAndSlotsMoveBytes := by
  intro s hr
  refine ⟨fun hs => ?_, fun hs => ?_, ?_, fun byte hs => ?_, fun hs => ⟨?_, ?_, ?_, fun byte h0 h1 h2 => ?_⟩,
    fun byte hs => ⟨fun hl => ?_, fun hl => ?_⟩, fun b rest hs hst hf => ?_, fun hs hst => ?_, fun hs => ?_⟩
  · rw [exec_selectPeriodStart hr, if_neg (by simp [hs])]
    rfl
  · rw [exec_selectPeriodStart hr, if_pos hs]
    have : ({ s.pins with scsLow := true } : Pins) = s.pins := by rw [← hs]
    exact congrArg Host.Outcome.next (by rw [State.modPins, this])
  · exact State.unlessHeld_of_rstHigh (s := s.modPins fun p => { p with scsLow := false }) hr fun u =>
      u.setSelect .idle
  · unfold exec execTransactionByte
    refine (State.unlessHeld_of_rstHigh hr _).trans ?_
    rw [if_neg hs]
  · exact exec_transactionByte_awaiting hr hs _
  · exact exec_transactionByte_awaiting hr hs _
  · exact exec_transactionByte_awaiting hr hs _
  · rw [exec_transactionByte_awaiting hr hs, if_neg h0, if_neg h1, if_neg h2]
    refine ⟨_, rfl, fun he => ?_⟩
    exact State.attnLow_of_commandError (s := ((s.shiftOut 0).setSelect .ignoring).setCommandError) rfl he
  · rw [exec_putByte_put hr hs, State.putInbound_of_room (s := s.shiftOut 0) hl]
    exact ⟨_, rfl⟩
  · rw [exec_putByte_put hr hs, State.putInbound_of_full (s := s.shiftOut 0) hl]
    exact ⟨_, rfl⟩
  · rw [exec_takeByte_take hr hs, State.takeReport_of_cons hf (by simp [State.busy, hst])]
    refine ⟨_, rfl, fun hn he hl => ?_⟩
    show State.attnLow _ = false
    simp [State.attnLow, State.reportFlag, State.shiftOut, hn, he, hl]
  · rw [exec_takeByte_take hr hs, State.takeReport_of_none (hst.imp_left fun h => by simp [State.busy, h])]
    exact ⟨_, rfl⟩
  · refine ⟨s.statusByte, exec_takeByte_status hr hs, ?_⟩
    obtain ⟨b0, b1, b2, b3, b4, b5, b6, b7⟩ := flagBits_getLsbD s.readyFlag s.reportFlag s.port.commandError
      s.rep.lost s.busy s.online s.locked
    have hl : s.locked = decide (s.loop.lock ≠ .unlocked) := by
      rw [Bool.eq_iff_iff, State.locked_iff, decide_eq_true_iff]
    refine ⟨b0, b1, b2, b3, b4.trans ?_, b5.trans ?_, b6.trans hl, b7⟩
    · exact beq_eq_decide _ _
    · exact beq_eq_decide _ _

end Sys2Proof.Machine
end

section
/-! SUPPORT and PROOFS of what a lane's counters, lamps, scans and messages do alone (05, 06, 08): O29, O43, O50 and
O52. -/

namespace Sys2Proof.Machine

/-! ### A record at its place in the list -/

theorem map_if_tag_eq_self {ps : List Parcel} {t : Tag} (h : ∀ q ∈ ps, q.tag ≠ t) (f : Parcel → Parcel) :
    ps.map (fun r => if r.tag = t then f r else r) = ps := by
  rw [List.map_congr_left fun q hq => if_neg (h q hq)]
  exact List.map_id' ps

theorem filter_tag_eq_self {ps : List Parcel} {t : Tag} (h : ∀ q ∈ ps, q.tag ≠ t) :
    ps.filter (fun r => r.tag != t) = ps :=
  List.filter_eq_self.2 fun q hq => by simpa using h q hq

/-- A record changed by its tag, where no other record has it. -/
theorem LaneCtl.modParcel_of_split {c : LaneCtl} {older younger : List Parcel} {r : Parcel}
    (hp : c.parcels = older ++ r :: younger) (hu : ∀ q ∈ older ++ younger, q.tag ≠ r.tag)
    (f : Parcel → Parcel) : c.modParcel r.tag f = { c with parcels := older ++ f r :: younger } := by
  unfold LaneCtl.modParcel
  rw [hp, List.map_append, List.map_cons, if_pos rfl,
    map_if_tag_eq_self fun q hq => hu q (List.mem_append_left _ hq),
    map_if_tag_eq_self fun q hq => hu q (List.mem_append_right _ hq)]

/-- A record dropped by its tag, where no other record has it. -/
theorem LaneCtl.dropParcel_of_split {c : LaneCtl} {older younger : List Parcel} {r : Parcel}
    (hp : c.parcels = older ++ r :: younger) (hu : ∀ q ∈ older ++ younger, q.tag ≠ r.tag) :
    c.dropParcel r.tag = { c with parcels := older ++ younger } := by
  unfold LaneCtl.dropParcel
  rw [hp, List.filter_append, List.filter_cons_of_neg (by simp),
    filter_tag_eq_self fun q hq => hu q (List.mem_append_left _ hq),
    filter_tag_eq_self fun q hq => hu q (List.mem_append_right _ hq)]

/-- The first record of a kind, known by its place. -/
theorem find?_of_split {ps older younger : List Parcel} {r : Parcel} {k : Parcel → Bool}
    (hp : ps = older ++ r :: younger) (ho : ∀ q ∈ older, k q = false) (hr : k r = true) : ps.find? k = some r := by
  rw [hp, List.find?_append, List.find?_eq_none.2 fun q hq => by simp [ho q hq]]
  simp [hr]

theorem find?_eq_none_of_all {ps : List Parcel} {k : Parcel → Bool} (h : ∀ q ∈ ps, k q = false) :
    ps.find? k = none := List.find?_eq_none.2 fun q hq => by simp [h q hq]

/-- A lane changed to a known value. -/
theorem State.modLane_eq {s : State} {l : Lane} {f : LaneCtl → LaneCtl} {d : LaneCtl} (h : f (s.lane l) = d) :
    s.modLane l f = { s with lanes := s.lanes.set l d } := by
  rw [← h]
  rfl

/-! ### Lamps (R143, R144) -/

/-- The output lines follow a change of one pace's lamp timers in that lane's lamps alone. -/
theorem State.lampOutputs {s : State} (h : s.atRest = true) (l : Lane) (f : PaceLane → PaceLane) :
    (s.modPaceLane l f).outputs = { s.outs with
      lampGo := s.outs.lampGo.set l (f (s.pace.lanes.get l)).goLit
      lampStop := s.outs.lampStop.set l (f (s.pace.lanes.get l)).stopLit } := by
  rw [(s.atRest_iff.1 h).2]
  cases l <;> rfl

theorem State.lampDrive {s : State} (h : s.atRest = true) (l : Lane) {f : PaceLane → PaceLane} {q : PaceLane}
    (hq : f (s.pace.lanes.get l) = q) :
    (s.modPaceLane l f).drive = { s with
      pace := { s.pace with lanes := s.pace.lanes.set l q }
      outs := { s.outs with
        lampGo := s.outs.lampGo.set l q.goLit
        lampStop := s.outs.lampStop.set l q.stopLit } } := by
  rw [State.drive_eq, State.lampOutputs h, hq, ← hq]
  rfl

theorem State.lampGo_of_atRest {s : State} (h : s.atRest = true) (l : Lane) :
    s.outs.lampGo.set l (s.pace.lanes.get l).goLit = s.outs.lampGo := by
  rw [(s.atRest_iff.1 h).2]
  cases l <;> rfl

theorem State.lampStop_of_atRest {s : State} (h : s.atRest = true) (l : Lane) :
    s.outs.lampStop.set l (s.pace.lanes.get l).stopLit = s.outs.lampStop := by
  rw [(s.atRest_iff.1 h).2]
  cases l <;> rfl

/-- A lamp command that leaves the pace leaves the state at rest as it is. -/
theorem State.lampDrive_self {s : State} (h : s.atRest = true) (l : Lane) {f : PaceLane → PaceLane}
    (hq : f (s.pace.lanes.get l) = s.pace.lanes.get l) : (s.modPaceLane l f).drive = s := by
  rw [State.lampDrive h l hq, State.lampGo_of_atRest h, State.lampStop_of_atRest h, Two.set_get]

theorem exec_goPulse {s : State} (hr : s.pins.rstLow = false) (l : Lane) :
    exec (.goPulse l) s = .next (s.modPaceLane l PaceLane.pulseDue).drive :=
  State.unlessHeld_of_rstHigh hr fun s => (s.modPaceLane l PaceLane.pulseDue).drive

/-- What GO_PULSE_END does to a lane's lamp timers (R143). -/
def PaceLane.pulseEnd (p : PaceLane) : PaceLane :=
  if p.aspect = .go then { p with pulse := max p.pulse 250 } else p

/-- What WAIT_BLINK does to a lane's lamp timers (R144). -/
def PaceLane.blinkDueNext (p : PaceLane) : PaceLane := if p.aspect = .wait then p.blinkNext else p

theorem exec_goPulseEnd {s : State} (hr : s.pins.rstLow = false) (l : Lane) :
    exec (.goPulseEnd l) s = .next (s.modPaceLane l PaceLane.pulseEnd).drive :=
  State.unlessHeld_of_rstHigh hr fun s => (s.modPaceLane l PaceLane.pulseEnd).drive

theorem exec_waitBlink {s : State} (hr : s.pins.rstLow = false) (l : Lane) :
    exec (.waitBlink l) s = .next (s.modPaceLane l PaceLane.blinkDueNext).drive :=
  State.unlessHeld_of_rstHigh hr fun s => (s.modPaceLane l PaceLane.blinkDueNext).drive

/-- Settles O29: each lamp command by the aspect, its timer and its lamp. -/
theorem lampTimersDriveLamps : Obligations.LampTimersDriveLamps := by
  intro s l hr hrest p moved
  have go := State.lampGo_of_atRest hrest l
  have stop := State.lampStop_of_atRest hrest l
  refine ⟨fun ha => ⟨fun hp => ?_, fun hp => ?_, ?_⟩, fun ha => ⟨?_, ?_⟩, fun ha => ?_, fun ha => ?_⟩
  · have hq : p.pulseDue = { p with pulse := 0 } := if_pos ⟨ha, hp⟩
    have hg : ({ p with pulse := 0 } : PaceLane).goLit = true := by simp [PaceLane.goLit, ha, Config.pulseMs]
    have hs : ({ p with pulse := 0 } : PaceLane).stopLit = p.stopLit := rfl
    rw [exec_goPulse hr, State.lampDrive hrest l hq, hg, hs, stop]
  · have hq : p.pulseDue = p := if_neg fun h => absurd h.2 (Nat.not_le.2 hp)
    rw [exec_goPulse hr, State.lampDrive_self hrest l hq]
  · have hq : p.pulseEnd = { p with pulse := max p.pulse 250 } := if_pos ha
    have hg : ({ p with pulse := max p.pulse 250 } : PaceLane).goLit = false := by
      simp [PaceLane.goLit, Config.pulseMs]
    have hs : ({ p with pulse := max p.pulse 250 } : PaceLane).stopLit = p.stopLit := rfl
    rw [exec_goPulseEnd hr, State.lampDrive hrest l hq, hg, hs, stop]
  · have hq : p.pulseDue = p := if_neg fun h => ha h.1
    rw [exec_goPulse hr, State.lampDrive_self hrest l hq]
  · have hq : p.pulseEnd = p := if_neg ha
    rw [exec_goPulseEnd hr, State.lampDrive_self hrest l hq]
  · have hq : p.blinkDueNext = p.blinkNext := if_pos ha
    have hg : p.blinkNext.goLit = p.goLit := rfl
    have hs : p.blinkNext.stopLit = !decide (p.blink < 250) := by
      by_cases hb : p.blink < 250 <;> simp [PaceLane.stopLit, PaceLane.blinkNext, ha, hb, Config.pulseMs]
    rw [exec_waitBlink hr, State.lampDrive hrest l hq, hg, hs, go]
    rfl
  · have hq : p.blinkDueNext = p := if_neg ha
    rw [exec_waitBlink hr, State.lampDrive_self hrest l hq]

/-! ### Counters (R86, R87, R94, R101) -/

theorem exec_beltEncoderCount {s : State} (hr : s.pins.rstLow = false) (l : Lane) :
    exec (.beltEncoderCount l) s = .next (
      if s.entryBeltRuns l then
        let s1 := s.modLane l fun c => (c.countGap (s.cfgMinGap l)).countMeasure
        if (s1.lane l).atLimit then (s1.measureLimit l).settle s false false else s1
      else s) := State.unlessHeld_of_rstHigh hr fun s =>
      if s.entryBeltRuns l then
        let s1 := s.modLane l fun c => (c.countGap (s.cfgMinGap l)).countMeasure
        if (s1.lane l).atLimit then (s1.measureLimit l).settle s false false else s1
      else s

/-- A belt count short of the measurement limit moves the lane to what the counts give alone. -/
theorem exec_beltEncoderCount_short {s : State} (hr : s.pins.rstLow = false) {l : Lane}
    (he : s.entryBeltRuns l = true) {d : LaneCtl} (hd : ((s.lane l).countGap (s.cfgMinGap l)).countMeasure = d)
    (ha : d.atLimit = false) : exec (.beltEncoderCount l) s = .next { s with lanes := s.lanes.set l d } := by
  rw [exec_beltEncoderCount hr, if_pos he]
  dsimp only
  rw [State.modLane_lane_self, hd, ha, State.modLane_eq hd]
  rfl

/-- Settles O43: each counter's command by its branch. -/
theorem laneCountersMoveAlone : Obligations.LaneCountersMoveAlone := by
  intro s l hr c
  refine ⟨fun he hm hg hlt => ?_, fun he hm hg => ?_, fun he => ?_, fun hg => ?_, fun e hl ha => ?_, ?_⟩
  · refine exec_beltEncoderCount_short hr he ?_ ?_
    · have hc : c.countGap (s.cfgMinGap l) = c := by simp [LaneCtl.countGap, hg]
      show (c.countGap _).countMeasure = _
      rw [hc]
      exact if_pos hm
    · have : ¬ 3000 ≤ c.measure + 1 := Nat.not_le.2 hlt
      simp [LaneCtl.atLimit, Config.measureLimit, this]
  · refine exec_beltEncoderCount_short hr he ?_ ?_
    · have hc : c.countGap (s.cfgMinGap l) = { c with
          gapCount := c.gapCount + 1
          gapTest := if s.cfgMinGap l ≤ c.gapCount + 1 then none else c.gapTest } := if_pos hg
      show (c.countGap _).countMeasure = _
      rw [hc]
      refine if_neg ?_
      rw [show LaneCtl.measuring? { c with
          gapCount := c.gapCount + 1
          gapTest := if s.cfgMinGap l ≤ c.gapCount + 1 then none else c.gapTest } = none from hm]
      exact Bool.false_ne_true
    · have : LaneCtl.measuring? { c with
          gapCount := c.gapCount + 1
          gapTest := if s.cfgMinGap l ≤ c.gapCount + 1 then none else c.gapTest } = none := hm
      rw [LaneCtl.atLimit, this]
      rfl
  · rw [exec_beltEncoderCount hr, if_neg (by simp [he])]
  · refine (State.unlessHeld_of_rstHigh hr fun s => if (s.lane l).gapTest.isSome then
      s.modLane l fun c => { c with gapCount := s.cfgMinGap l, gapTest := none } else s).trans ?_
    rw [if_pos hg]
    rfl
  · refine (State.unlessHeld_of_rstHigh (s := s.setMergeEye l true) hr fun s1 =>
      s1.modLane l LaneCtl.seeMerge).trans (congrArg Host.Outcome.next ?_)
    have hd : c.seeMerge = { c with launch := some { e with mergeSeen := true } } := by
      simp [LaneCtl.seeMerge, hl, ha]
    exact (State.modLane_eq (s := s.setMergeEye l true) hd)
  · exact State.unlessHeld_of_rstHigh (s := s.modPins fun p => { p with button := p.button.set l false }) hr
      fun s1 => s1.modLane l fun c => { c with buttonFilter := Config.filterMs }

/-! ### Scans (R108 to R110) -/

theorem State.onLane_of_some {s : State} {b : Byte} {l : Lane} (h : laneOfByte b = some l) (act : Lane → State) :
    s.onLane b act = act l := by
  simp [State.onLane, h]

theorem State.onLane_of_none {s : State} {b : Byte} (h : laneOfByte b = none) (act : Lane → State) :
    s.onLane b act = s.refuseMessage := by
  simp [State.onLane, h]

/-- R108: a scan taken in RUNNING, PAUSED or BLOCKED is placed; in STOPPED and FAULT it is refused. -/
theorem State.takeScan_of_placed {s : State} {l : Lane} (h : ¬ ((s.lane l).state = .stopped ∨ (s.lane l).state = .fault))
    (sc : Scan) : s.takeScan l sc = s.placeScan l sc := by
  unfold State.takeScan
  split
  · rfl
  · rfl
  · rfl
  · exact absurd (.inl ‹_›) h
  · exact absurd (.inr ‹_›) h

theorem State.takeScan_of_off {s : State} {l : Lane} (h : (s.lane l).state = .stopped ∨ (s.lane l).state = .fault)
    (sc : Scan) : s.takeScan l sc = s.queueReport (.orphan l sc.id) := by
  rcases h with h | h <;> simp [State.takeScan, h]

theorem State.placeScan_of_held {s : State} {l : Lane} (h : (s.lane l).early.isSome = true) (sc : Scan) :
    s.placeScan l sc = s.queueReport (.orphan l sc.id) := by
  obtain ⟨old, ho⟩ := Option.isSome_iff_exists.1 h
  simp [State.placeScan, ho]

theorem State.placeScan_of_none {s : State} {l : Lane} (h : (s.lane l).early = none)
    (hn : (s.lane l).parcels.find? Parcel.isCandidate = none) (sc : Scan) :
    s.placeScan l sc = s.modLane l fun c => { c with early := some sc } := by
  simp [State.placeScan, h, hn]

theorem State.placeScan_of_some {s : State} {l : Lane} (h : (s.lane l).early = none) {r : Parcel}
    (hr : (s.lane l).parcels.find? Parcel.isCandidate = some r) (sc : Scan) :
    s.placeScan l sc = s.modLane l fun c => c.giveScan r.tag sc := by
  simp [State.placeScan, h, hr]

/-- Settles O52: the three ways a scan goes. -/
theorem scanIsPlacedOnce : Obligations.ScanIsPlacedOnce := by
  intro s b l id chute flags hr hst hb c sc off
  have e : exec (.scan b id chute flags) s = .next (s.takeScan l sc).drive := by
    rw [exec_messageOf_act rfl hr hst]
    exact congrArg Host.Outcome.next (State.onLane_of_some hb _)
  rw [e]
  refine ⟨fun h => ?_, fun ho he hn => ?_, fun older r younger ho he hp hold hcand hu => ?_⟩
  · have ht : s.takeScan l sc = s.queueReport (.orphan l id) := by
      by_cases ho : off
      · exact State.takeScan_of_off ho sc
      · rw [State.takeScan_of_placed ho, State.placeScan_of_held (h.resolve_left ho)]
    rw [ht]
    exact ⟨_, rfl⟩
  · rw [State.takeScan_of_placed ho, State.placeScan_of_none he (find?_eq_none_of_all hn)]
    exact ⟨_, rfl⟩
  · rw [State.takeScan_of_placed ho, State.placeScan_of_some he (find?_of_split hp hold hcand),
      State.modLane_eq (LaneCtl.modParcel_of_split hp hu _)]
    exact ⟨_, rfl⟩

end Sys2Proof.Machine
end

section
/-! SUPPORT and PROOF of the lane messages (R102, R105, R108, R141): the change of a lane's state, the end of an event
that changed no plan and no frame, and O50. -/

namespace Sys2Proof.Machine

/-! ### A change of lane state -/

/-- 5.2, R104, R141: a change of lane state moves that lane's state, reason and removal flag, the pace of a lane
entering RUNNING, and the reports. -/
theorem State.enterLane_eq (s : State) (l : Lane) (st : LaneState) (reason : LaneReason) :
    s.enterLane l st reason = { s with
      lanes := s.lanes.set l { s.lane l with
        state := st, reason := reason, removal := removalOnEntry st (s.lane l).removal }
      pace := if st = .running then (s.paceRestart l).pace else s.pace
      rep := (s.queueReport (.lane l st reason)).rep } := by
  unfold State.enterLane
  split <;> rfl

theorem State.enterLane_lane_self (s : State) (l : Lane) (st : LaneState) (reason : LaneReason) :
    (s.enterLane l st reason).lane l = { s.lane l with
      state := st, reason := reason, removal := removalOnEntry st (s.lane l).removal } := by
  rw [State.enterLane_eq]
  exact Two.get_set_self ..

theorem State.enterLane_lane_ne (s : State) {l m : Lane} (h : m ≠ l) (st : LaneState) (reason : LaneReason) :
    (s.enterLane l st reason).lane m = s.lane m := by
  rw [State.enterLane_eq]
  exact Two.get_set_ne _ _ h

/-- R141: a pace restarted stands at the slowest entry, its cadence not valid. -/
theorem State.paceRestart_self (s : State) (l : Lane) :
    (s.paceRestart l).pace.lanes.get l = { s.pace.lanes.get l with index := 15, hyst := 0, valid := false } :=
  Two.get_set_self ..

/-! ### The end of an event that changed no plan and no frame -/

/-- An event from `before` to `u` that left plans and queue ends in `settle` as in `EventEnd`. -/
theorem State.settle_quiet {u before : State} (hp : u.plans = before.plans) (hq : u.txq = before.txq) :
    EventEnd u (u.settle before false false) :=
  u.settle_eventEnd before (planEnded_of_plans_eq hp) (queueEmptied_of_txq_eq hq)

theorem perLane_get {α : Type} (f : Lane → α) (l : Lane) : (perLane f).get l = f l := by
  cases l <;> rfl

/-- 5.2, R155: the entry belt's line after `settle`. -/
theorem State.settle_drvEn (u before : State) (planning test : Bool) (l : Lane) :
    (u.settle before planning test).outs.drvEn.get l = (u.settle before planning test).entryBeltRuns l := by
  rw [State.settle_outs]
  exact perLane_get _ l

theorem EventEnd.online {s t : State} (h : EventEnd s t) : t.online = s.online := by
  simp [State.online, h.table]

/-- 5.2: the entry belt's line follows the lane state and the station state. -/
theorem State.settle_quiet_drvEn {u before : State} (hp : u.plans = before.plans) (hq : u.txq = before.txq)
    (l : Lane) : (u.settle before false false).outs.drvEn.get l = ((u.lane l).state == .running && u.online) := by
  have e := State.settle_quiet hp hq
  rw [State.settle_drvEn, State.entryBeltRuns, (e.lanes l).state, e.online]

/-! ### Messages refused (R105, R108) -/

/-- A refused message sets COMMAND_ERROR and moves the output lines alone, ATTN low where it is enabled. -/
theorem exec_of_refused {c : Instr} {m : Message} {s : State} (h : messageOf c = some m)
    (hr : s.pins.rstLow = false) (hst : s.table.station ≠ .applying) (ha : s.act m = s.refuseMessage) :
    ∃ o, exec c s = .next { s with port := { s.port with commandError := true }, outs := o } ∧
      (bitAt (s.cw 47) 1 = true → o.attnLow = true) := by
  rw [exec_messageOf_act h hr hst, ha, s.refuseMessage_eq]
  exact ⟨_, rfl, fun he => State.attnLow_of_commandError (s := s.setCommandError) rfl he⟩

theorem State.actStart_of_refused {s : State} {b : Byte} {l : Lane} (hb : laneOfByte b = some l)
    (h : (s.lane l).state ≠ .stopped ∨ s.table.station ≠ .online) : s.act (.start b) = s.refuseMessage := by
  refine (State.onLane_of_some hb _).trans (if_neg ?_)
  rcases h with h | h <;> simp [State.online, h]

theorem State.actPause_of_refused {s : State} {b : Byte} {l : Lane} (hb : laneOfByte b = some l)
    (h1 : (s.lane l).state ≠ .running) (h2 : (s.lane l).state ≠ .paused) :
    s.act (.pause b) = s.refuseMessage := by
  refine (State.onLane_of_some hb _).trans ?_
  split
  · exact absurd ‹_› h1
  · exact absurd ‹_› h2
  all_goals rfl

theorem State.actResume_of_refused {s : State} {b : Byte} {l : Lane} (hb : laneOfByte b = some l)
    (h1 : (s.lane l).state ≠ .paused) (h2 : (s.lane l).state ≠ .fault) :
    s.act (.resume b) = s.refuseMessage := by
  refine (State.onLane_of_some hb _).trans ?_
  split
  · exact absurd ‹_› h1
  · exact absurd ‹_› h2
  all_goals rfl

/-! ### Messages taken (R102, R105) -/

theorem State.actStart_of_taken {s : State} {b : Byte} {l : Lane} (hb : laneOfByte b = some l)
    (ho : s.table.station = .online) (h : (s.lane l).state = .stopped) :
    s.act (.start b) = (s.enterLane l .running .command).settle s false false :=
  (State.onLane_of_some hb _).trans (if_pos (by simp [State.online, ho, h]))

theorem State.actPause_of_running {s : State} {b : Byte} {l : Lane} (hb : laneOfByte b = some l)
    (h : (s.lane l).state = .running) :
    s.act (.pause b) = (s.enterLane l .paused .command).settle s false false := by
  refine (State.onLane_of_some hb _).trans ?_
  simp only [h]

theorem State.actPause_of_paused {s : State} {b : Byte} {l : Lane} (hb : laneOfByte b = some l)
    (h : (s.lane l).state = .paused) : s.act (.pause b) = s := by
  refine (State.onLane_of_some hb _).trans ?_
  simp only [h]

theorem State.actResume_of_paused {s : State} {b : Byte} {l : Lane} (hb : laneOfByte b = some l)
    (h : (s.lane l).state = .paused) :
    s.act (.resume b) = (s.enterLane l .running .command).settle s false false := by
  refine (State.onLane_of_some hb _).trans ?_
  simp only [h]

theorem State.actResume_of_fault {s : State} {b : Byte} {l : Lane} (hb : laneOfByte b = some l)
    (h : (s.lane l).state = .fault) :
    s.act (.resume b) =
      ((s.modLane l LaneCtl.deleteList).enterLane l .paused .command).settle s false false := by
  refine (State.onLane_of_some hb _).trans ?_
  simp only [h]

/-- What a lane message taken leaves: the lane in its new state, all of trays, plans, queue and loop, and its
report. -/
theorem State.enterLane_settle {s u : State} {l : Lane} {st : LaneState} {reason : LaneReason}
    (hp : u.plans = s.plans) (hq : u.txq = s.txq) :
    let t := (u.enterLane l st reason).settle s false false
    (t.lane l).state = st ∧ (t.lane l).reason = reason ∧
      (t.lane l).removal = removalOnEntry st (u.lane l).removal ∧
      (st = .running → (t.pace.lanes.get l).index = 15 ∧ (t.pace.lanes.get l).valid = false) ∧
      t.outs.drvEn.get l = (st == .running && u.online) ∧ t.rep = (u.queueReport (.lane l st reason)).rep ∧
      t.trays = u.trays ∧ t.plans = u.plans ∧ t.txq = u.txq ∧ t.loop = u.loop := by
  have hpl : (u.enterLane l st reason).plans = s.plans := by rw [State.enterLane_eq]; exact hp
  have htx : (u.enterLane l st reason).txq = s.txq := by rw [State.enterLane_eq]; exact hq
  have e := State.settle_quiet hpl htx
  have k := e.lanes l
  rw [State.enterLane_lane_self] at k
  refine ⟨k.state, k.reason, k.removal, fun hst => ?_, ?_, ?_, ?_, ?_, ?_, ?_⟩
  · have hpace : (u.enterLane l st reason).pace.lanes.get l =
        { u.pace.lanes.get l with index := 15, hyst := 0, valid := false } := by
      rw [State.enterLane_eq, if_pos hst]
      exact u.paceRestart_self l
    rw [e.index, e.valid, hpace]
    exact ⟨rfl, rfl⟩
  · rw [State.settle_quiet_drvEn hpl htx, State.enterLane_lane_self]
    rw [State.enterLane_eq]
    rfl
  · rw [e.rep, State.enterLane_eq]
  · rw [e.trays, State.enterLane_eq]
  · rw [e.plans, State.enterLane_eq]
  · rw [e.txq, State.enterLane_eq]
  · rw [e.loop, State.enterLane_eq]

/-- Settles O50: START, PAUSE and RESUME by lane state, then the refusals. -/
theorem laneMessagesMoveLaneStateOrAreRefused : Obligations.LaneMessagesMoveLaneStateOrAreRefused := by
  intro s b hr hst
  refine ⟨fun l hb => ⟨fun ho h => ?_, fun h => ?_, fun h => ⟨?_, ?_⟩, fun h => ?_⟩, fun c hc => ?_⟩
  · rw [exec_messageOf_act rfl hr hst, State.actStart_of_taken hb ho h]
    obtain ⟨h1, h2, h3, h4, h5, h6, h7, h8, h9, h10⟩ :=
      State.enterLane_settle (s := s) (u := s) (l := l) (st := .running) (reason := .command) rfl rfl
    refine ⟨_, rfl, h1, h2, h3, (h4 rfl).1, (h4 rfl).2, h5.trans ?_, h6, h7, h8, h9, h10⟩
    simp [State.online, ho]
  · rw [exec_messageOf_act rfl hr hst, State.actPause_of_running hb h]
    obtain ⟨h1, h2, h3, -, h5, h6, h7, h8, h9, h10⟩ :=
      State.enterLane_settle (s := s) (u := s) (l := l) (st := .paused) (reason := .command) rfl rfl
    exact ⟨_, rfl, h1, h2, h3, h5, h6, h7, h8, h9, h10⟩
  · rw [exec_messageOf_act rfl hr hst, State.actPause_of_paused hb h]
  · rw [exec_messageOf_act rfl hr hst, State.actResume_of_paused hb h]
    obtain ⟨h1, h2, h3, h4, -, h6, h7, h8, h9, h10⟩ :=
      State.enterLane_settle (s := s) (u := s) (l := l) (st := .running) (reason := .command) rfl rfl
    exact ⟨_, rfl, h1, h2, h3, (h4 rfl).1, h6, h7, h8, h9, h10⟩
  · rw [exec_messageOf_act rfl hr hst, State.actResume_of_fault hb h]
    have hl : (s.modLane l LaneCtl.deleteList).lane l = (s.lane l).deleteList := State.modLane_lane_self ..
    obtain ⟨h1, h2, h3, -, -, h6, h7, h8, h9, h10⟩ := State.enterLane_settle (s := s)
      (u := s.modLane l LaneCtl.deleteList) (l := l) (st := .paused) (reason := .command) rfl rfl
    have k := (State.settle_quiet (u := (s.modLane l LaneCtl.deleteList).enterLane l .paused .command)
      (before := s) (by rw [State.enterLane_eq]; rfl) (by rw [State.enterLane_eq]; rfl)).lanes l
    rw [State.enterLane_lane_self, hl] at k
    rw [hl] at h3
    exact ⟨_, rfl, h1, h2, h3, List.length_eq_zero_iff.1 k.length, k.launch, k.gapTest, k.early, h6, h7, h8, h9,
      h10⟩
  · rcases hc with ⟨hb, rfl | rfl | rfl | rfl | ⟨id, chute, flags, rfl⟩⟩ | ⟨l, hb, ⟨rfl, h⟩ | ⟨rfl, h1, h2⟩ | ⟨rfl, h1, h2⟩⟩
    · exact exec_of_refused rfl hr hst (State.onLane_of_none hb _)
    · exact exec_of_refused rfl hr hst (State.onLane_of_none hb _)
    · exact exec_of_refused rfl hr hst (State.onLane_of_none hb _)
    · exact exec_of_refused rfl hr hst (State.onLane_of_none hb _)
    · exact exec_of_refused rfl hr hst (State.onLane_of_none hb _)
    · exact exec_of_refused rfl hr hst (State.actStart_of_refused hb h)
    · exact exec_of_refused rfl hr hst (State.actPause_of_refused hb h1 h2)
    · exact exec_of_refused rfl hr hst (State.actResume_of_refused hb h1 h2)

end Sys2Proof.Machine
end

section
/-! SUPPORT and PROOFS of the encodings (3.3, 9.3): O10 and O11. -/

namespace Sys2Proof.Machine

/-! ### Frames (3.3, R48, R50) -/

theorem FrameKind.code_pos_le (k : FrameKind) : 1 ≤ k.code ∧ k.code ≤ 7 := by
  cases k with
  | loaded c d => cases d <;> exact ⟨by simp [FrameKind.code], by simp [FrameKind.code]⟩
  | claim l => cases l <;> decide
  | _ => decide

/-- 3.3: the kind code and, for a LOADED, the chute give the kind back. -/
theorem kindOfCode_code (k : FrameKind) (chute : Byte) (h : ∀ c d, k = .loaded c d → c = chute) :
    kindOfCode k.code chute = some k := by
  cases k with
  | loaded c d => rw [h c d rfl]; cases d <;> rfl
  | claim l => cases l <;> rfl
  | _ => rfl

theorem frameBody_length (f : FrameData) : (frameBody f).length + 3 = frameLength f.kind.code := by
  unfold frameBody frameLength
  cases f.kind with
  | loaded c d => cases d <;> rfl
  | claim l => cases l <;> rfl
  | _ => rfl

/-- The five bytes every frame begins with after its start mark (3.3). -/
theorem frameBody_bytes (f : FrameData) : ∃ tail, frameBody f =
    BitVec.ofNat 8 (f.kind.code * 32 + f.station % 32) :: BitVec.ofNat 8 (f.location / 8192 % 256) ::
      BitVec.ofNat 8 (f.location / 32 % 256) :: BitVec.ofNat 8 (f.location % 32 * 8 + f.tray / 128 % 8) ::
        BitVec.ofNat 8 (f.tray % 128 * 2 + spanBit f.span) :: tail := by
  unfold frameBody
  cases f.kind <;> exact ⟨_, rfl⟩

theorem frameBytes_eq (f : FrameData) :
    frameBytes f = Config.startMark :: (frameBody f ++ crcBytes (crc16 (frameBody f))) := rfl

theorem frameBytes_length (f : FrameData) : (frameBytes f).length = frameLength f.kind.code := by
  rw [← frameBody_length, frameBytes_eq, List.length_cons, List.length_append]
  rfl

/-- R50: the check bytes end the frame, and what they cover stands between them and the start mark. -/
theorem frameBytes_drop (f : FrameData) :
    (frameBytes f).drop ((frameBytes f).length - 2) = crcBytes (crc16 (frameBody f)) ∧
      ((frameBytes f).take ((frameBytes f).length - 2)).drop 1 = frameBody f := by
  have hl : (frameBytes f).length - 2 = (frameBody f).length + 1 := by
    rw [frameBytes_length, ← frameBody_length]
    omega
  rw [hl, frameBytes_eq]
  simp

theorem byteAt_ofNat {bytes : List Byte} {i n : Nat} (h : bytes[i]? = some (BitVec.ofNat 8 n)) :
    byteAt bytes i = n % 256 := by
  simp [byteAt, h]

/-- Settles O10: the checks of form and check pass, and the five fields come out of the bytes they went into. -/
theorem composedFrameReadsBack : Obligations.ComposedFrameReadsBack := by
  intro f hs hl ht
  refine ⟨frameBytes_length f, ?_⟩
  obtain ⟨tail, hb⟩ := frameBody_bytes f
  have hcode := f.kind.code_pos_le
  have b1 : byteAt (frameBytes f) 1 = f.kind.code * 32 + f.station := by
    rw [byteAt_ofNat (n := f.kind.code * 32 + f.station % 32) (by rw [frameBytes_eq, hb]; rfl)]
    omega
  have b2 : byteAt (frameBytes f) 2 = f.location / 8192 := by
    rw [byteAt_ofNat (n := f.location / 8192 % 256) (by rw [frameBytes_eq, hb]; rfl)]
    omega
  have b3 : byteAt (frameBytes f) 3 = f.location / 32 % 256 := by
    rw [byteAt_ofNat (n := f.location / 32 % 256) (by rw [frameBytes_eq, hb]; rfl)]
    omega
  have b4 : byteAt (frameBytes f) 4 = f.location % 32 * 8 + f.tray / 128 := by
    rw [byteAt_ofNat (n := f.location % 32 * 8 + f.tray / 128 % 8) (by rw [frameBytes_eq, hb]; rfl)]
    omega
  have hsp : spanBit f.span < 2 := by cases f.span <;> decide
  have b5 : byteAt (frameBytes f) 5 = f.tray % 128 * 2 + spanBit f.span := by
    rw [byteAt_ofNat (n := f.tray % 128 * 2 + spanBit f.span) (by rw [frameBytes_eq, hb]; rfl)]
    omega
  have hkc : kindCodeOf (frameBytes f) = f.kind.code := by
    unfold kindCodeOf
    rw [if_pos (by rw [frameBytes_length, ← frameBody_length]; omega), b1]
    omega
  have hk : kindOfCode (kindCodeOf (frameBytes f)) ((frameBytes f)[6]?.getD 0) = some f.kind := by
    rw [hkc]
    refine kindOfCode_code _ _ fun c d hk => ?_
    rw [frameBytes_eq, frameBody, hk]
    rfl
  obtain ⟨hd, hbody⟩ := frameBytes_drop f
  unfold parseFrame
  rw [hk]
  dsimp only
  have hhead : (frameBytes f)[0]? = some Config.startMark := rfl
  rw [hkc, if_neg (by rw [hhead, frameBytes_length]; simp), hd, hbody, if_neg (by simp)]
  have hspan : (if (f.tray % 128 * 2 + spanBit f.span) % 2 = 0 then Span.one else .two) = f.span := by
    cases f.span <;> simp [spanBit, Nat.add_mod]
  have hfields : parseFields (frameBytes f) f.kind =
      { kind := f.kind, station := f.station, location := f.location, tray := f.tray, span := f.span } := by
    unfold parseFields
    rw [b1, b2, b3, b4, b5, hspan, FrameData.mk.injEq]
    exact ⟨rfl, by omega, by omega, by omega, rfl⟩
  rw [hfields]

/-! ### Messages (9.3, R148) -/

theorem twoBytes_append (v : BitVec 16) :
    BitVec.ofNat 8 (v.toNat / 256) ++ BitVec.ofNat 8 v.toNat = v := by
  apply BitVec.eq_of_toNat_eq
  have := v.isLt
  rw [BitVec.toNat_append, BitVec.toNat_ofNat, BitVec.toNat_ofNat, Nat.shiftLeft_eq, Nat.mul_comm,
    ← Nat.two_pow_add_eq_or_of_lt (Nat.mod_lt _ (by decide))]
  omega

theorem wordBytes_append (v : Word) :
    BitVec.ofNat 8 (v.toNat / 16777216) ++ BitVec.ofNat 8 (v.toNat / 65536) ++ BitVec.ofNat 8 (v.toNat / 256) ++
      BitVec.ofNat 8 v.toNat = v := by
  apply BitVec.eq_of_toNat_eq
  have := v.isLt
  rw [BitVec.toNat_append, BitVec.toNat_append, BitVec.toNat_append, BitVec.toNat_ofNat, BitVec.toNat_ofNat,
    BitVec.toNat_ofNat, BitVec.toNat_ofNat]
  simp only [Nat.shiftLeft_eq]
  rw [Nat.mul_comm _ (2 ^ 8), ← Nat.two_pow_add_eq_or_of_lt (Nat.mod_lt _ (by decide)),
    Nat.mul_comm _ (2 ^ 8), ← Nat.two_pow_add_eq_or_of_lt (Nat.mod_lt _ (by decide)),
    Nat.mul_comm _ (2 ^ 8), ← Nat.two_pow_add_eq_or_of_lt (Nat.mod_lt _ (by decide))]
  omega

/-- 9.3: a message is its code and the bytes its length asks for, and they read back as that message. -/
theorem Message.bytes_decode (m : Message) : ∃ code args, m.bytes = code :: args ∧
    messageLength code = some (args.length + 1) ∧ decodeMessage code args = some m := by
  cases m with
  | scan lane id chute flags =>
    refine ⟨_, _, rfl, rfl, ?_⟩
    show some (Message.scan lane (BitVec.ofNat 8 (id.toNat / 256) ++ BitVec.ofNat 8 id.toNat) chute flags) = _
    rw [twoBytes_append]
  | loadWord v =>
    refine ⟨_, _, rfl, rfl, ?_⟩
    show some (Message.loadWord (BitVec.ofNat 8 (v.toNat / 16777216) ++ BitVec.ofNat 8 (v.toNat / 65536) ++
      BitVec.ofNat 8 (v.toNat / 256) ++ BitVec.ofNat 8 v.toNat)) = _
    rw [wordBytes_append]
  | loadWordNext v =>
    refine ⟨_, _, rfl, rfl, ?_⟩
    show some (Message.loadWordNext (BitVec.ofNat 8 (v.toNat / 16777216) ++ BitVec.ofNat 8 (v.toNat / 65536) ++
      BitVec.ofNat 8 (v.toNat / 256) ++ BitVec.ofNat 8 v.toNat)) = _
    rw [wordBytes_append]
  | readTray k =>
    refine ⟨_, _, rfl, rfl, ?_⟩
    show some (Message.readTray (BitVec.ofNat 8 (k.toNat / 256) ++ BitVec.ofNat 8 k.toNat)) = _
    rw [twoBytes_append]
  | clearDefect k =>
    refine ⟨_, _, rfl, rfl, ?_⟩
    show some (Message.clearDefect (BitVec.ofNat 8 (k.toNat / 256) ++ BitVec.ofNat 8 k.toNat)) = _
    rw [twoBytes_append]
  | _ => exact ⟨_, _, rfl, rfl, rfl⟩

/-! ### The parser (R148) -/

theorem exec_parserByte_cons {s : State} (hr : s.pins.rstLow = false) {b : Byte} {rest : List Byte}
    (h : s.port.inbound = b :: rest) :
    exec .parserByte s = .next ((s.modPort fun p => { p with inbound := rest }).parse b) := by
  unfold exec execParserByte
  refine (State.unlessHeld_of_rstHigh hr _).trans ?_
  simp only [h]

/-- The first byte of a message: its code names a length, or is unknown. -/
theorem exec_parserByte_first {s : State} (hr : s.pins.rstLow = false) {b : Byte} {rest : List Byte}
    (hi : s.port.inbound = b :: rest) (ha : s.port.assembly = none) :
    exec .parserByte s = .next (if (messageLength b).isSome then
      (s.modPort fun p => { p with inbound := rest }).assemble { code := b, bytes := [] }
      else (s.modPort fun p => { p with inbound := rest }).setCommandError.drive) := by
  rw [exec_parserByte_cons hr hi]
  have ha' : (s.modPort fun p => { p with inbound := rest }).port.assembly = none := ha
  unfold State.parse
  rw [ha']
  cases messageLength b <;> rfl

/-- A byte of a message under way. -/
theorem exec_parserByte_next {s : State} (hr : s.pins.rstLow = false) {b : Byte} {rest : List Byte}
    {a : Assembly} (hi : s.port.inbound = b :: rest) (ha : s.port.assembly = some a) :
    exec .parserByte s = .next ((s.modPort fun p => { p with inbound := rest }).assemble
      { a with bytes := a.bytes ++ [b] }) := by
  rw [exec_parserByte_cons hr hi]
  have ha' : (s.modPort fun p => { p with inbound := rest }).port.assembly = some a := ha
  unfold State.parse
  rw [ha']

/-- A message short of its length is kept. -/
theorem State.assemble_of_short (s : State) {a : Assembly} (h : messageLength a.code ≠ some (a.bytes.length + 1)) :
    s.assemble a = s.modPort fun p => { p with assembly := some a } := if_neg h

/-- A message at its length is taken. -/
theorem State.assemble_of_whole (s : State) {a : Assembly} {m : Message}
    (h : messageLength a.code = some (a.bytes.length + 1)) (hd : decodeMessage a.code a.bytes = some m) :
    s.assemble a = (s.modPort fun p => { p with assembly := none }).takeMessage m := by
  unfold State.assemble
  rw [if_pos h]
  dsimp only
  rw [hd]

/-- A byte that completes no message is added to the message under way. -/
theorem exec_parserByte_kept {s : State} (hr : s.pins.rstLow = false) {a : Assembly} {b : Byte} {rest : List Byte}
    (hi : s.port.inbound = b :: rest) (ha : s.port.assembly = some a)
    (hn : messageLength a.code ≠ some (a.bytes.length + 2)) :
    exec .parserByte s = .next { s with
      port := { s.port with inbound := rest, assembly := some { a with bytes := a.bytes ++ [b] } } } := by
  rw [exec_parserByte_next hr hi ha, State.assemble_of_short _ (by simpa using hn)]
  rfl

/-- A code of more than one byte begins a message. -/
theorem exec_parserByte_begun {s : State} (hr : s.pins.rstLow = false) {b : Byte} {rest : List Byte} {n : Nat}
    (hi : s.port.inbound = b :: rest) (ha : s.port.assembly = none) (hn : messageLength b = some n) (h1 : 1 < n) :
    exec .parserByte s = .next { s with
      port := { s.port with inbound := rest, assembly := some { code := b, bytes := [] } } } := by
  have hs : messageLength b ≠ some 1 := by
    rw [hn]
    simp
    omega
  rw [exec_parserByte_first hr hi ha, if_pos (by rw [hn]; rfl),
    State.assemble_of_short (a := { code := b, bytes := [] }) _ hs]
  rfl

/-- A step that takes a parser command, before the steps after it. -/
theorem steps_succ_parserByte {s u : State} {q : List Instr} (n : Nat) (h : s.pending = .parserByte :: q)
    (he : exec .parserByte (s.withPending q) = .next u) : steps (n + 1) s = steps n u := by
  have hs : step s = .next u := (stepRunsFrontCommand _ _ s h).trans he
  show (match step s with | .next t => steps n t | .fault r => .fault r | .refused r => .refused r) = _
  rw [hs]

/-- The bytes left of a message under way, one parser command each. -/
theorem steps_parse (bs : List Byte) : ∀ (b : Byte) (a : Assembly) (m : Message) (s : State) (rest : List Byte)
    (q : List Instr), s.pins.rstLow = false → s.port.assembly = some a → s.port.inbound = b :: bs ++ rest →
    s.pending = List.replicate (bs.length + 1) .parserByte ++ q →
    messageLength a.code = some (a.bytes.length + bs.length + 2) →
    decodeMessage a.code (a.bytes ++ b :: bs) = some m →
    steps (bs.length + 1) s = .next ({ s with
      pending := q, port := { s.port with inbound := rest, assembly := none } }.takeMessage m) := by
  induction bs with
  | nil =>
    intro b a m s rest q hr ha hi hq hl hd
    have he := exec_parserByte_next (s := s.withPending q) hr hi ha
    rw [State.assemble_of_whole _ (by simpa using hl) hd] at he
    exact steps_succ_parserByte 0 hq he
  | cons c bs ih =>
    intro b a m s rest q hr ha hi hq hl hd
    have hshort : messageLength a.code ≠ some (a.bytes.length + 2) := by
      rw [hl, List.length_cons]
      simp
    refine (steps_succ_parserByte _ hq (exec_parserByte_kept
      (s := s.withPending (List.replicate (bs.length + 1) .parserByte ++ q)) hr hi ha hshort)).trans ?_
    refine ih c { a with bytes := a.bytes ++ [b] } m _ rest q hr rfl rfl rfl ?_ ?_
    · show messageLength a.code = _
      rw [hl, List.length_cons, List.length_append, List.length_singleton]
      congr 1
      omega
    · rw [List.append_assoc]
      exact hd

/-- Settles O11: one byte by the parser's branches, and a message by its bytes. -/
theorem parserAssemblesMessages : Obligations.ParserAssemblesMessages := by
  refine ⟨fun s hr => ⟨fun hi => ?_, fun b rest hi ha => ⟨fun hn => ?_, fun n hn h1 => ?_⟩,
    fun a b rest n hi ha hn hlt => ?_⟩, fun m s rest q hr ha hi hq => ?_⟩
  · unfold exec execParserByte
    refine (State.unlessHeld_of_rstHigh hr _).trans ?_
    simp only [hi]
  · rw [exec_parserByte_first hr hi ha, hn]
    exact ⟨_, rfl⟩
  · exact exec_parserByte_begun hr hi ha hn h1
  · exact exec_parserByte_kept hr hi ha (by rw [hn, ne_eq, Option.some.injEq]; omega)
  · obtain ⟨code, args, hb, hl, hd⟩ := m.bytes_decode
    rw [hb] at hi hq ⊢
    have hport : ({ s.port with inbound := rest, assembly := none } : LocalPort) =
        { s.port with inbound := rest } := by rw [← ha]
    rw [← hport]
    cases args with
    | nil =>
      have he := exec_parserByte_first (s := s.withPending q) hr hi ha
      rw [hl, if_pos (by rfl), State.assemble_of_whole (a := { code := code, bytes := [] }) _ hl hd] at he
      exact steps_succ_parserByte 0 hq he
    | cons b args =>
      refine (steps_succ_parserByte _ hq
        (exec_parserByte_begun
        (s := s.withPending (List.replicate (args.length + 1) .parserByte ++ q)) hr hi ha hl (by simp))).trans ?_
      refine steps_parse args b { code := code, bytes := [] } m _ rest q hr rfl rfl rfl ?_ hd
      show messageLength code = _
      rw [hl, List.length_cons]
      congr 1
      simp

end Sys2Proof.Machine
end

section
/-! SUPPORT and PROOFS of the aim search and of the plan a granted claim makes (R10, R30, R125, R126, R128): O23 and
O24. -/

namespace Sys2Proof.Machine

/-! ### The aim search -/

theorem State.laneOrderOk_iff (s : State) (l : Lane) (d : Nat) :
    s.laneOrderOk l d = true ↔ ∀ sl p, s.plan l sl = some p → p.aimReached = false →
      s.fd s.loop.S p.aim + s.cfgQ l ≤ d := by
  have one : ∀ sl, (match s.plan l sl with
      | some p => p.aimReached || decide (s.fd s.loop.S p.aim + s.cfgQ l ≤ d)
      | none => true) = true ↔ ∀ p, s.plan l sl = some p → p.aimReached = false →
        s.fd s.loop.S p.aim + s.cfgQ l ≤ d := by
    intro sl
    cases s.plan l sl with
    | none => simp
    | some p => cases h : p.aimReached <;> simp [h]
  unfold State.laneOrderOk
  rw [List.all_cons, List.all_cons, List.all_nil, Bool.and_true, Bool.and_eq_true]
  refine (and_congr (one .s0) (one .s1)).trans ⟨fun h sl => ?_, fun h => ⟨h .s0, h .s1⟩⟩
  cases sl
  · exact h.1
  · exact h.2

theorem State.clearanceOk_iff (s : State) (l : Lane) (d : Nat) :
    s.clearanceOk l d = true ↔ ∀ sl p, s.plan (otherLane l) sl = some p → p.aimReached = false →
      s.fd s.loop.S p.aim + s.cfgC ≤ d ∨ d + s.cfgC ≤ s.fd s.loop.S p.aim := by
  have one : ∀ sl, (match s.plan (otherLane l) sl with
      | some p =>
        let o := s.fd s.loop.S p.aim
        p.aimReached || decide (o + s.cfgC ≤ d) || decide (d + s.cfgC ≤ o)
      | none => true) = true ↔ ∀ p, s.plan (otherLane l) sl = some p → p.aimReached = false →
        s.fd s.loop.S p.aim + s.cfgC ≤ d ∨ d + s.cfgC ≤ s.fd s.loop.S p.aim := by
    intro sl
    cases s.plan (otherLane l) sl with
    | none => simp
    | some p => cases h : p.aimReached <;> simp [h]
  unfold State.clearanceOk
  rw [List.all_cons, List.all_cons, List.all_nil, Bool.and_true, Bool.and_eq_true]
  refine (and_congr (one .s0) (one .s1)).trans ⟨fun h sl => ?_, fun h => ⟨h .s0, h .s1⟩⟩
  cases sl
  · exact h.1
  · exact h.2

theorem State.eligibleSpan_iff (s : State) (k : Nat) (sp : Span) :
    s.eligibleSpan k sp = true ↔ ∀ j ∈ s.namedTrays k sp, s.eligible j = true := List.all_eq_true

/-- R126: what the aim search tests of a candidate. -/
theorem State.acceptable_iff (s : State) (l : Lane) (sp : Span) (d k : Nat) :
    s.acceptable l sp (d, k) = true ↔ (∀ j ∈ s.namedTrays k sp, s.eligible j = true) ∧
      (∀ sl p, s.plan l sl = some p → p.aimReached = false → s.fd s.loop.S p.aim + s.cfgQ l ≤ d) ∧
      (∀ sl p, s.plan (otherLane l) sl = some p → p.aimReached = false →
        s.fd s.loop.S p.aim + s.cfgC ≤ d ∨ d + s.cfgC ≤ s.fd s.loop.S p.aim) := by
  rw [State.acceptable, Bool.and_eq_true, Bool.and_eq_true, State.eligibleSpan_iff, State.laneOrderOk_iff,
    State.clearanceOk_iff, and_assoc]

/-- Settles O23: the candidates are the trays in range with their distances, nearest first, and the search takes
the first that passes. -/
theorem aimSearchFindsNearestAcceptedTray : Obligations.AimSearchFindsNearestAcceptedTray := by
  intro s l lead sp hv hS d passes
  obtain ⟨hT, hP, -, -⟩ := s.validated_geometry hv
  have hp : 0 < s.cfgP := by omega
  have passes_iff : ∀ k, passes k ↔ (d k, k) ∈ s.candidates lead sp ∧ s.acceptable l sp (d k, k) = true := by
    intro k
    rw [State.mem_candidates hv hS, State.acceptable_iff]
    exact ⟨fun ⟨h1, h2, h3, h4⟩ => ⟨⟨h1, h2, h3, rfl⟩, h4⟩, fun ⟨⟨h1, h2, h3, _⟩, h4⟩ => ⟨h1, h2, h3, h4⟩⟩
  refine ⟨fun k hk => ?_, fun hn j hj => ?_⟩
  · obtain ⟨⟨d', k'⟩, hf, hk'⟩ := Option.map_eq_some_iff.1 hk
    have hkk : k' = k := hk'
    subst hkk
    obtain ⟨hacc, before, after, he, hrej⟩ := List.find?_eq_some_iff_append.1 hf
    have hmem : (d', k') ∈ s.candidates lead sp := he ▸ List.mem_append_right _ List.mem_cons_self
    have hd : d k' = d' := ((State.mem_candidates hv hS lead sp d' k').1 hmem).2.2.2
    subst hd
    refine ⟨(passes_iff k').2 ⟨hmem, hacc⟩, fun j hj => ?_⟩
    obtain ⟨hjm, hja⟩ := (passes_iff j).1 hj
    have hs := State.candidates_sorted hp lead sp
    rw [he] at hjm hs
    rcases List.mem_append.1 hjm with hb | ha
    · have := hrej _ hb
      rw [hja] at this
      cases this
    · rcases List.mem_cons.1 ha with e | ha
      · exact (congrArg Prod.fst e).ge
      · exact (List.rel_of_pairwise_cons (List.pairwise_append.1 hs).2.1 ha).le
  · obtain ⟨hjm, hja⟩ := (passes_iff j).1 hj
    have hno := List.find?_eq_none.1 (Option.map_eq_none_iff.1 hn) _ hjm
    exact hno hja

/-! ### The plan made -/

/-- R10: a trigger armed in lock ahead of the loop is held. -/
theorem State.arm_of_ahead {s : State} {p : Nat} (hl : s.locked = true) (hp : s.alreadyReached p = false)
    (l : Lane) (sl : Slot) : s.arm l sl p = s.setTrig (s.trig.set l sl (some p)) := by
  have ha : (s.setTrig (s.trig.set l sl (some p))).alreadyReached p = false := hp
  unfold State.arm
  rw [if_pos hl]
  dsimp only
  rw [ha]
  rfl

theorem State.appendEntry_eq (s : State) (e : TxEntry) : s.appendEntry e =
    { s with txq := s.txq ++ [e], line := if s.txq.isEmpty then s.line.newHead else s.line } := by
  unfold State.appendEntry
  dsimp only
  split <;> rfl

theorem State.ownTrays_eq (s : State) (ref : PlanRef) (k : Nat) (sp : Span) :
    s.ownTrays ref k sp = { s with trays := (s.ownTrays ref k sp).trays } := by
  cases sp <;> rfl

/-- R128: the plan made where the loop has not come to its trigger. -/
theorem State.makePlan_of_ahead {s : State} {l : Lane} {sl : Slot} {tag : Tag} {k lead : Nat} {sp : Span}
    (hl : s.locked = true) (ha : s.alreadyReached (s.fd lead (s.aimOf k sp)) = false) :
    s.makePlan l sl tag k sp lead = { s with
      trays := (s.ownTrays { lane := l, tag := tag } k sp).trays
      txq := s.txq ++ [{ kind := .claim l, tray := k, span := sp, plan := some { lane := l, tag := tag }
                         phase := .waiting, ended := false }]
      line := if s.txq.isEmpty then s.line.newHead else s.line
      plans := s.plans.set l sl (some (s.newPlan tag k sp lead))
      lanes := s.lanes.set l ((s.lane l).modParcel tag fun r => { r with planSlot := some sl })
      trig := s.trig.set l sl (some (s.fd lead (s.aimOf k sp))) } := by
  unfold State.makePlan
  dsimp only
  rw [State.appendEntry_eq, State.ownTrays_eq]
  refine (State.arm_of_ahead ?_ ?_ l sl).trans rfl
  · exact hl
  · exact ha

/-- R30: the record of the tray claimed, and of the next tray for a pair. -/
theorem State.ownTrays_trayRec {s : State} {ref : PlanRef} {k : Nat} (sp : Span) (hk : s.nextTray k ≠ k)
    {r : TrayRec} (hr : s.tray? k = some r) : (s.ownTrays ref k sp).tray? k = some
      { cond := .own, seen := r.seen, holder := none
        partner := match sp with | .one => none | .two => some (s.nextTray k)
        plan := some ref } := by
  cases sp with
  | one => simp [State.ownTrays, State.modTray_trayRec, hr]
  | two => simp [State.ownTrays, State.modTray_trayRec, hr, hk]

theorem State.ownTrays_trayRec_next {s : State} {ref : PlanRef} {k : Nat} (hk : s.nextTray k ≠ k)
    {q : TrayRec} (hq : s.tray? (s.nextTray k) = some q) :
    (s.ownTrays ref k .two).tray? (s.nextTray k) = some
      { cond := .own, seen := q.seen, holder := none, partner := some k, plan := some ref } := by
  simp [State.ownTrays, State.modTray_trayRec, hq, hk.symm]

/-- Settles O24: the fields of the plan made. -/
theorem grantedClaimMakesTentativePlan : Obligations.GrantedClaimMakesTentativePlan := by
  intro s l sl tag k lead sp r hl _ hr ha hk t
  have e : t = _ := State.makePlan_of_ahead (s.locked_iff.2 hl) ha
  refine ⟨?_, ?_, ?_, ?_, fun hsp q hq => ?_, ?_, ?_⟩ <;> rw [e]
  · exact Four.get_set_self ..
  · exact Four.get_set_self ..
  · exact State.ownTrays_trayRec sp hk hr
  · subst hsp
    exact State.ownTrays_trayRec_next hk hq

end Sys2Proof.Machine
end

section
/-! SUPPORT. The end of an event where nothing is planned anew and LEAVING does not end (R122, R165). -/

namespace Sys2Proof.Machine

/-! ### A planning event that makes no claim (R121, R122) -/

theorem State.planningEvent_of_not_mayPlan {s : State} (h : s.mayPlan = false) : s.planningEvent = s := by
  simp [State.planningEvent, h]

theorem State.takesPart_of_offered_nil {s : State} {l : Lane} (h : s.offered l = []) :
    s.takesPart l = false := by
  simp [State.takesPart, h]

theorem State.planningEvent_of_none {s : State} (h : ∀ l, s.takesPart l = false) :
    s.planningEvent = s := by
  simp only [State.planningEvent, h]
  split <;> rfl

/-! ### What a transfer that begins leaves (R91) -/

theorem State.startTransfers_keep {α : Type} (s : State) (g : State → α)
    (h : ∀ (u : State) v, g (u.setLanes v) = g u) : g s.startTransfers = g s := by
  rw [State.startTransfers_eq]; exact h _ _

theorem State.startTransfers_mayPlan (s : State) : s.startTransfers.mayPlan = s.mayPlan :=
  s.startTransfers_keep State.mayPlan fun _ _ => rfl

/-- A parcel under way is not offered. -/
theorem State.startTransfers_offered_nil {s : State} {l : Lane} (h : s.offered l = []) :
    s.startTransfers.offered l = [] := by
  have ho : s.startTransfers.online = s.online := s.startTransfers_keep State.online fun _ _ => rfl
  have m := s.startTransfers_moved l
  obtain ⟨f, hf, hc⟩ := m.parcels
  unfold State.offered at h ⊢
  rw [ho, m.state, hf]
  split at h
  · rename_i hon
    rw [if_pos hon, List.filter_eq_nil_iff]
    intro q hq
    obtain ⟨p, hp, rfl⟩ := List.mem_map.1 hq
    have hn := List.filter_eq_nil_iff.1 h p hp
    rcases hc p with e | e
    · rwa [e]
    · rw [e]; simp [Parcel.isOffered]
  · rename_i hon
    rw [if_neg hon]

theorem State.startTransfers_leavingDone (s : State) :
    s.startTransfers.updateFeeds.leavingDone = s.leavingDone := by
  have ht : s.startTransfers.updateFeeds.table = s.table := s.startTransfers_keep State.table fun _ _ => rfl
  have hq : s.startTransfers.updateFeeds.txq = s.txq := s.startTransfers_keep State.txq fun _ _ => rfl
  have hl : ∀ l, (s.startTransfers.updateFeeds.lane l).launchRuns = (s.lane l).launchRuns := fun l =>
    LaneCtl.launchRuns_congr (congrArg (Option.map Launch.aborted)
      ((s.startTransfers_moved l).trans (s.startTransfers.updateFeeds_moved l)).launch)
  have h0 : s.startTransfers.updateFeeds.lanes.l0.launchRuns = s.lanes.l0.launchRuns := hl .l0
  have h1 : s.startTransfers.updateFeeds.lanes.l1.launchRuns = s.lanes.l1.launchRuns := hl .l1
  simp only [State.leavingDone, ht, hq, h0, h1]

theorem State.startTransfers_queueEmptied (before s : State) :
    queueEmptied before s.startTransfers.updateFeeds = queueEmptied before s := by
  have hq : s.startTransfers.updateFeeds.txq = s.txq := s.startTransfers_keep State.txq fun _ _ => rfl
  simp only [queueEmptied, hq]

/-! ### The end of such an event -/

/-- No planning event comes, or one that makes no claim. -/
def State.PlansNothing (s before : State) (planning : Bool) : Prop :=
  (planning || planEnded before s) = false ∨ s.mayPlan = false ∨ ∀ l, s.offered l = []

/-- LEAVING is not tested, or does not end. -/
def State.LeavesNothing (s before : State) (test : Bool) : Prop :=
  (test || queueEmptied before s) = false ∨ s.leavingDone = false

theorem State.leavesNothing_of_not_leaving {s : State} (h : s.table.station ≠ .leaving)
    (before : State) (test : Bool) : s.LeavesNothing before test :=
  .inr (by simp [State.leavingDone, h])

theorem State.leavesNothing_of_txq_ne {s : State} (h : s.txq ≠ [])
    (before : State) (test : Bool) : s.LeavesNothing before test :=
  .inr (by simp [State.leavingDone, h])

theorem State.settle_of_plansNothing {s before : State} {planning : Bool}
    (hp : s.PlansNothing before planning) (test : Bool) :
    s.settle before planning test = s.startTransfers.finish before test := by
  unfold State.settle
  dsimp only
  rcases hp with h | h | h
  · simp only [h, Bool.false_eq_true, if_false]
  · rw [State.planningEvent_of_not_mayPlan (s.startTransfers_mayPlan.trans h), ite_self]
  · rw [State.planningEvent_of_none fun l =>
      State.takesPart_of_offered_nil (State.startTransfers_offered_nil (h l)), ite_self]

/-- The end of an event in which nothing is planned anew and LEAVING does not end. -/
theorem State.settle_end {s before : State} {planning test : Bool} (hp : s.PlansNothing before planning)
    (hq : s.LeavesNothing before test) : EventEnd s (s.settle before planning test) := by
  rw [State.settle_of_plansNothing hp]
  refine EventEnd.of_lanes s.startTransfers_eq s.startTransfers_moved (State.finish_eventEnd _ _ _ ?_)
  rw [State.startTransfers_leavingDone, State.startTransfers_queueEmptied]
  exact hq

/-- Where no transfer waits and the feeds are right the end of an event leaves the lanes. -/
theorem State.settle_lanes {s before : State} {planning test : Bool} (hp : s.PlansNothing before planning)
    (hq : s.LeavesNothing before test) (ht : ∀ l, s.NoTransfer l)
    (hf : ∀ l, (s.lane l).feed = s.feedRuns l) :
    (s.settle before planning test).lanes = s.lanes := by
  have hs : s.startTransfers = s := by
    unfold State.startTransfers
    rw [State.startTransfer_eq_self ((s.noTransfer_iff .l0).1 (ht _)),
      State.startTransfer_eq_self ((s.noTransfer_iff .l1).1 (ht _))]
  have hu : s.updateFeeds = s := by
    unfold State.updateFeeds
    rw [State.updateFeed_eq_self (hf .l0), State.updateFeed_eq_self (hf .l1)]
  rw [State.settle_of_plansNothing hp, hs, State.finish_eq _ _ _ (by rw [hu]; exact hq), hu]
  exact State.retakeAspects_lanes s

/-- The end of an event changes nothing of a state at rest. -/
theorem State.settle_self {s before : State} {planning test : Bool} (hp : s.PlansNothing before planning)
    (hq : s.LeavesNothing before test) (hr : s.atRest = true) :
    s.settle before planning test = s := by
  obtain ⟨hl, ho⟩ := s.atRest_iff.1 hr
  simp only [State.laneAtRest, Bool.and_eq_true, beq_iff_eq, Option.isNone_iff_eq_none] at hl
  have hs : s.startTransfers = s := by
    unfold State.startTransfers
    rw [State.startTransfer_eq_self (hl .l0).1.1, State.startTransfer_eq_self (hl .l1).1.1]
  have hu : s.updateFeeds = s := by
    unfold State.updateFeeds
    rw [State.updateFeed_eq_self (hl .l0).1.2, State.updateFeed_eq_self (hl .l1).1.2]
  rw [State.settle_of_plansNothing hp, hs, State.finish_eq _ _ _ (by rw [hu]; exact hq), hu,
    State.retakeAspects, State.retakeAspect_eq_self (hl .l0).2, State.retakeAspect_eq_self (hl .l1).2,
    State.drive_eq_self ho]

theorem State.plansNothing_of_plans {s before : State} (h : s.plans = before.plans) :
    s.PlansNothing before false :=
  .inl (by rw [Bool.false_or]; exact planEnded_of_plans_eq h)

theorem State.leavesNothing_of_txq {s before : State} (h : s.txq = before.txq) :
    s.LeavesNothing before false :=
  .inl (by rw [Bool.false_or]; exact queueEmptied_of_txq_eq h)

theorem EventEnd.tray {s t : State} (h : EventEnd s t) (k : Nat) : t.tray? k = s.tray? k := by
  rw [State.tray?, h.trays]; rfl

theorem EventEnd.plan {s t : State} (h : EventEnd s t) (l : Lane) (sl : Slot) : t.plan l sl = s.plan l sl := by
  rw [State.plan, h.plans]; rfl

end Sys2Proof.Machine
end

section
/-! SUPPORT. The end of LEAVING at its command (R165). -/

open Sys2Proof Sys2Proof.Machine

namespace Sys2Proof.Machine

theorem State.lanesLeft_rep_of_stopped {s : State} (h0 : s.lanes.l0.state = .stopped)
    (h1 : s.lanes.l1.state = .stopped) : s.lanesLeft.rep = s.rep := by
  have hr : s.lanesRunningOn = [] := by
    simp [State.lanesRunningOn, bothLanes, State.lane, Two.get, h0, h1]
  have hall : ∀ (ls : List Lane) (u : State), (∀ l, (u.lane l).state = .stopped) →
      (ls.foldl State.laneLeft u).rep = u.rep := by
    intro ls
    induction ls with
    | nil => exact fun _ _ => rfl
    | cons l ls ih =>
      intro u hu
      rw [List.foldl_cons, ih _ fun m => by rw [State.laneLeft_lane]; split <;> simp [LaneCtl.left, hu],
        State.laneLeft_eq, if_pos (hu l)]
      rfl
  unfold State.lanesLeft
  rw [hall _ _ fun l => by rw [State.afterOrder_eq]; cases l <;> assumption, State.afterOrder_eq]
  rfl

theorem exec_leavingEnd {s : State} (hr : s.pins.rstLow = false) :
    exec .leavingEnd s = .next (s.testLeaving.settle s false false) := by
  change execLeavingEnd s = _
  unfold execLeavingEnd
  exact State.unlessHeld_of_rstHigh hr _

theorem planEnded_of_none {s t : State} (h : s.plans = .all none) : planEnded s t = false := by
  simp only [planEnded, allSlots, List.any_cons, List.any_nil, State.plan, h, Bool.or_eq_false_iff]
  exact ⟨by rfl, by rfl, by rfl, by rfl, trivial⟩

theorem LaneMoved.parcels_nil {c d : LaneCtl} (m : LaneMoved c d) (h : c.parcels = []) : d.parcels = [] := by
  obtain ⟨f, hf, -⟩ := m.parcels
  rw [hf, h]; rfl

theorem State.mayPlan_of_not_online {s : State} (h : s.table.station ≠ .online) : s.mayPlan = false := by
  simp [State.mayPlan, State.online, h]

/-- Settles O57: with no launch and an empty queue the command returns the station, and before that it changes
nothing of a state at rest. -/
theorem leavingEndsWhenLaunchesAndQueueAreDone : Obligations.LeavingEndsWhenLaunchesAndQueueAreDone := by
  unfold Obligations.LeavingEndsWhenLaunchesAndQueueAreDone
  intro s hr hst
  refine ⟨fun h0 h1 hq => ?_, fun hn hrest => ?_⟩
  · have hd : s.leavingDone = true := by simp [State.leavingDone, hst, h0, h1, hq]
    have ht : s.testLeaving = s.endLeaving := by rw [State.testLeaving, if_pos hd]
    have hnot : s.endLeaving.table.station = .configured := by rw [State.endLeaving_eq]
    have e : EventEnd s.endLeaving (s.endLeaving.settle s false false) :=
      State.settle_end (.inr (.inl (State.mayPlan_of_not_online (by rw [hnot]; decide))))
        (State.leavesNothing_of_not_leaving (by rw [hnot]; decide) _ _)
    have hlane : ∀ l, s.endLeaving.lane l = (s.lane l).left := fun l => by
      rw [State.endLeaving_eq]; cases l <;> rfl
    refine ⟨_, by rw [exec_leavingEnd hr, ht], ?_⟩
    refine ⟨by rw [e.table, State.endLeaving_eq], by rw [e.line, State.endLeaving_eq]; rfl,
      by rw [e.trays, State.endLeaving_eq], by rw [e.doubt, State.endLeaving_eq],
      by rw [e.plans, State.endLeaving_eq], by rw [e.trig, State.endLeaving_eq],
      by rw [e.aims, State.endLeaving_eq], fun l => ?_, fun hs0 hs1 => ?_,
      by rw [e.loop, State.endLeaving_eq], by rw [e.port, State.endLeaving_eq]⟩
    · have m := e.lanes l
      rw [hlane l] at m
      refine ⟨m.state, m.reason, m.parcels_nil rfl, m.launch, m.early, fun hp => ?_⟩
      rw [m.removal]
      simp [LaneCtl.left, hp]
    · rw [e.rep, State.endLeaving_eq]
      exact State.lanesLeft_rep_of_stopped hs0 hs1
  · have hd : s.leavingDone = false := by
      simp only [State.leavingDone]
      rcases hn with h | h | h <;> simp [h]
    have ht : s.testLeaving = s := by rw [State.testLeaving, if_neg (by simp [hd])]
    rw [exec_leavingEnd hr, ht, State.settle_self (State.plansNothing_of_plans rfl)
      (State.leavesNothing_of_txq rfl) hrest]

end Sys2Proof.Machine
end

section
/-! SUPPORT. JOIN and the completion of an APPLY (R20, R162, R163). -/

open Sys2Proof Sys2Proof.Machine

namespace Sys2Proof.Machine

/-! ### The join event (R20) -/

/-- A record of the fresh map after the defect list has been taken. -/
theorem State.markDefects_trayRec (ks : List Nat) (s : State) (k : Nat) :
    (ks.foldl (fun s k => s.modTray k fun r => { r with cond := .defective }) s).tray? k =
      (s.tray? k).map fun r => if k ∈ ks then { r with cond := .defective } else r := by
  induction ks generalizing s with
  | nil => simp
  | cons j ks ih =>
    rw [List.foldl_cons, ih]
    by_cases hj : j = k
    · subst hj
      rw [State.modTray_trayRec, if_pos rfl]
      cases s.tray? j <;> simp
    · rw [State.modTray_trayRec, if_neg hj]
      simp [Ne.symm hj]

theorem State.mem_defectList (s : State) (k : Nat) :
    k ∈ s.defectList ↔
      (List.range 20).any (fun i => defectEntry s.table.committed i == k && k != 0xFFFF) = true := by
  simp only [State.defectList, List.mem_filter, List.mem_map, List.any_eq_true, Bool.and_eq_true,
    beq_iff_eq]
  exact ⟨fun ⟨⟨i, hi, e⟩, h⟩ => ⟨i, hi, e, h⟩, fun ⟨i, hi, e, h⟩ => ⟨⟨i, hi, e⟩, h⟩⟩

theorem State.joinTrays_trayRec (s : State) {k : Nat} (hk : k < s.cfgT) :
    s.joinTrays.tray? k = some { TrayRec.fresh with
      cond := if (List.range 20).any (fun i => defectEntry s.table.committed i == k && k != 0xFFFF)
        then .defective else .learning } := by
  have hf : s.freshTrays.tray? k = some TrayRec.fresh := List.getElem?_replicate_of_lt hk
  have h := State.markDefects_trayRec s.defectList s.freshTrays k
  rw [hf, Option.map_some] at h
  refine Eq.trans (b := _) rfl (h.trans ?_)
  simp only [State.mem_defectList]
  split <;> rfl

/-- Settles O55: the join event record by record, and the refusal elsewhere. -/
theorem joinPutsStationOnLine : Obligations.JoinPutsStationOnLine := by
  unfold Obligations.JoinPutsStationOnLine
  intro s hr hna
  refine ⟨fun hc => ?_, fun hc => ?_⟩
  · have hact : s.act .join = s.joinLine.settle s false false := if_pos hc
    have hp : s.joinLine.plans = s.plans := by rw [State.joinLine_eq]
    have hq : s.joinLine.txq = s.txq := by rw [State.joinLine_eq]
    have e := State.settle_quiet hp hq
    refine ⟨_, (exec_messageOf_act (m := .join) rfl hr hna).trans (by rw [hact]), ?_⟩
    refine ⟨by rw [e.table, State.joinLine_eq], ?_, fun k hk => ?_, by rw [e.doubt, State.joinLine_eq],
      by rw [e.line, State.joinLine_eq]; rfl, e.txq.trans hq, by rw [e.rep, State.joinLine_eq],
      by rw [e.loop, State.joinLine_eq], e.plans.trans hp⟩
    · rw [e.trays, State.joinLine_eq]; exact s.joinTrays_length
    · rw [e.tray, State.joinLine_eq]; exact s.joinTrays_trayRec hk
  · obtain ⟨o, ho, -⟩ := exec_of_refused (c := .join) (m := .join) rfl hr hna (if_neg hc)
    exact ⟨o, ho⟩

/-! ### The completion of an APPLY (R162) -/

theorem exec_applyComplete {s : State} {a : Applying} (hr : s.pins.rstLow = false)
    (hst : s.table.station = .applying) (ha : s.table.applying = some a) :
    exec .applyComplete s = .next ((s.completeApply a).settle s false false) := by
  change execApplyComplete s = _
  unfold execApplyComplete
  refine (State.unlessHeld_of_rstHigh hr _).trans ?_
  simp [ha, State.busy, hst]

theorem State.completeApply_ok {s : State} {a : Applying} (h : validate a.copy = .ok) :
    s.completeApply a = s.commit a.copy := by
  simp only [State.completeApply, h]

theorem State.completeApply_failed {s : State} {a : Applying} (h : validate a.copy ≠ .ok) :
    s.completeApply a = (s.modTable fun t =>
      { t with
        station := if a.fromConfigured then .configured else .unconfigured
        applying := none }).queueReport (.applyResult (validate a.copy)) := by
  unfold State.completeApply
  split
  · contradiction
  · rfl

theorem State.slotsByAge_of_noPlans {s : State} (h : s.plans = .all none) (l : Lane) :
    s.slotsByAge l = [] := by
  have hp : ∀ sl, s.plan l sl = none := fun sl => by rw [State.plan, h]; cases l <;> cases sl <;> rfl
  simp only [State.slotsByAge, hp]

theorem State.withdrawAll_of_noPlans {s : State} (h : s.plans = .all none) : s.withdrawAll = s := by
  simp only [State.withdrawAll, s.slotsByAge_of_noPlans h, State.withdrawSlots, List.foldl_nil]

theorem State.markAimsReached_eq (s : State) : s.markAimsReached = s.setPlans s.markAimsReached.plans := rfl

/-- Lock lost off the line with no plan queues LOST alone. -/
theorem State.lockLost_rep_of_idle {s : State} (hm : s.mapInUse = false) (hp : s.plans = .all none) :
    s.lockLost.rep = (s.queueReport (.loop .unlocked .lost)).rep := by
  unfold State.lockLost
  dsimp only
  have hm' : ((((s.modLoop LoopTracker.unlock).setTrig (.all none)).setAims (.all none)).queueReport
      (.loop .unlocked .lost)).mapInUse = false := hm
  rw [if_neg (by simp [hm']), State.withdrawAll_of_noPlans (by exact hp), State.markAimsReached_eq]
  rfl

theorem State.queueReport_rep_congr {s t : State} (h : s.rep = t.rep) (r : Report) :
    (s.queueReport r).rep = (t.queueReport r).rep := by
  simp only [State.queueReport_rep, h]

theorem State.returnUnlocked_table (s : State) : s.returnUnlocked.table = s.table := by
  unfold State.returnUnlocked
  split
  · obtain ⟨u, w, e⟩ := s.lockLost_planWork
    rw [e]; exact w.table
  · rfl

theorem State.returnUnlocked_port (s : State) : s.returnUnlocked.port = s.port := by
  unfold State.returnUnlocked
  split
  · obtain ⟨u, w, e⟩ := s.lockLost_planWork
    rw [e]; exact w.port
  · rfl

/-- R162: the pace indices carry over; in lock the cadence ends. -/
theorem State.returnUnlocked_pace (s : State) (l : Lane) :
    (s.returnUnlocked.pace.lanes.get l).index = (s.pace.lanes.get l).index ∧
      (s.locked = true → (s.returnUnlocked.pace.lanes.get l).valid = false ∧
        (s.returnUnlocked.pace.lanes.get l).hyst = 0) := by
  unfold State.returnUnlocked
  split
  · obtain ⟨u, w, e⟩ := s.lockLost_planWork
    rw [e]
    cases l <;> exact ⟨rfl, fun _ => ⟨rfl, rfl⟩⟩
  · rename_i h
    exact ⟨rfl, fun h' => absurd h' h⟩

/-- R8, R162: in lock the return to UNLOCKED is lock lost but for the pace. -/
theorem State.returnUnlocked_of_locked {s : State} (hl : s.locked = true) :
    ∃ q, s.returnUnlocked = { s.lockLost with pace := q } := by
  unfold State.returnUnlocked
  rw [if_pos hl]
  generalize s.lockLost = u
  exact ⟨_, rfl⟩

/-- R162: what a commit leaves, field by field. -/
theorem State.commit_eq (s : State) (w : Words) :
    s.commit w = { s.returnUnlocked with
      table := { s.table with committed := w, station := .configured, applying := none }
      trays := List.replicate (wordAt w 2).toNat TrayRec.fresh
      doubt := 0
      rep := (s.returnUnlocked.queueReport (.applyResult .ok)).rep } := by
  have ht := s.returnUnlocked_table
  unfold State.commit
  generalize s.returnUnlocked = u at ht ⊢
  rw [← ht]
  rfl

/-- Settles O54: a validated copy is committed, another leaves the committed copy and reports its word. -/
theorem applyCompletesByValidation : Obligations.ApplyCompletesByValidation := by
  unfold Obligations.ApplyCompletesByValidation
  intro s a hr hst ha
  refine ⟨fun hv => ?_, fun hv => ?_⟩
  · have hexec := exec_applyComplete hr hst ha
    have hport := s.returnUnlocked_port
    have hpace := s.returnUnlocked_pace
    have hc := s.commit_eq a.copy
    rw [State.completeApply_ok hv] at hexec
    generalize hu : s.returnUnlocked = u at hc hport hpace
    generalize s.commit a.copy = v at hc hexec
    have hnot : v.table.station = .configured := by rw [hc]
    have e : EventEnd v (v.settle s false false) :=
      State.settle_end (.inr (.inl (State.mayPlan_of_not_online (by rw [hnot]; decide))))
        (State.leavesNothing_of_not_leaving (by rw [hnot]; decide) _ _)
    refine ⟨_, hexec, by rw [e.table, hc], by rw [e.trays, hc], by rw [e.doubt, hc],
      by rw [e.port, hc]; exact hport, fun l => (e.index l).trans (by rw [hc]; exact (hpace l).1),
      fun hl => ?_, fun hl => ?_⟩
    · have hs : u = s := hu.symm.trans (if_neg (by simp [State.locked, hl]))
      rw [e.loop, e.rep, hc, hs]
      exact ⟨rfl, rfl⟩
    · have hl : s.locked = true := s.locked_iff.2 hl
      obtain ⟨q, hq⟩ := State.returnUnlocked_of_locked hl
      rw [hu] at hq
      have hloop : u.loop = s.loop.unlock := by rw [hq]; exact s.lockLost_loop
      have htrig : u.trig = .all none := by rw [hq]; exact s.lockLost_entries.1
      have haims : u.aims = .all none := by rw [hq]; exact s.lockLost_entries.2
      have hrep : u.rep = s.lockLost.rep := by rw [hq]
      refine ⟨by rw [e.loop, hc]; exact hloop, by rw [e.trig, hc]; exact htrig,
        by rw [e.aims, hc]; exact haims, fun l => ?_, fun hp => ?_⟩
      · rw [e.valid, e.hyst, hc]
        exact (hpace l).2 hl
      · rw [e.rep, hc]
        exact State.queueReport_rep_congr
          (hrep.trans (State.lockLost_rep_of_idle (by simp [State.mapInUse, hst]) hp)) _
  · have hexec := exec_applyComplete hr hst ha
    rw [State.completeApply_failed hv] at hexec
    generalize hu : State.queueReport _ _ = u at hexec
    have e := State.settle_quiet (u := u) (before := s) (by rw [← hu]; rfl) (by rw [← hu]; rfl)
    exact ⟨_, hexec, by rw [e.table, ← hu]; rfl, by rw [e.rep, ← hu]; rfl, by rw [e.loop, ← hu]; rfl,
      by rw [e.trays, ← hu]; rfl, by rw [e.doubt, ← hu]; rfl, by rw [e.port, ← hu]; rfl⟩

end Sys2Proof.Machine
end

section
/-! SUPPORT. What the end of an event leaves of the paces and of the reports, and the window end (R13 to R15). -/

open Sys2Proof Sys2Proof.Machine

namespace Sys2Proof.Machine

/-! ### The end of an event, whatever it does -/

/-- What the Pace Generator keeps of a lane beside its aspect and lamp timers. -/
structure SamePace (p q : PaceLane) : Prop where
  index : q.index = p.index
  valid : q.valid = p.valid
  hyst : q.hyst = p.hyst

theorem SamePace.refl (p : PaceLane) : SamePace p p := ⟨rfl, rfl, rfl⟩

theorem SamePace.trans {p q r : PaceLane} (h : SamePace p q) (k : SamePace q r) : SamePace p r :=
  ⟨k.index.trans h.index, k.valid.trans h.valid, k.hyst.trans h.hyst⟩

theorem State.testLeaving_grows (s : State) : RepGrows s.rep s.testLeaving.rep := by
  unfold State.testLeaving
  split
  · rw [State.endLeaving_eq]; exact s.lanesLeft_grows
  · exact .refl _

theorem State.testLeaving_pace (s : State) : s.testLeaving.pace = s.pace := by
  unfold State.testLeaving
  split
  · rw [State.endLeaving_eq]
  · rfl

theorem State.finish_grows (s before : State) (test : Bool) :
    RepGrows s.rep (s.finish before test).rep := by
  change RepGrows s.updateFeeds.rep (if test || queueEmptied before s.updateFeeds then
    s.updateFeeds.testLeaving else s.updateFeeds).rep
  split
  · exact State.testLeaving_grows _
  · exact .refl _

theorem State.retakeAspects_samePace (s : State) (l : Lane) :
    SamePace (s.pace.lanes.get l) (s.retakeAspects.drive.pace.lanes.get l) := by
  obtain ⟨a, ha⟩ := s.retakeAspects_lane l
  obtain ⟨hi, hv, hh, -⟩ := PaceLane.become_kept (s.pace.lanes.get l) a
  change SamePace _ (s.retakeAspects.pace.lanes.get l)
  rw [ha]
  exact ⟨hi, hv, hh⟩

theorem State.finish_samePace (s before : State) (test : Bool) (l : Lane) :
    SamePace (s.pace.lanes.get l) ((s.finish before test).pace.lanes.get l) := by
  unfold State.finish
  dsimp only
  refine SamePace.trans ?_ (State.retakeAspects_samePace _ l)
  split
  · rw [State.testLeaving_pace]; exact .refl _
  · exact .refl _

theorem State.finish_target (s before : State) (test : Bool) :
    (s.finish before test).pace.target = s.pace.target := by
  unfold State.finish
  dsimp only
  change (ite _ _ _ : State).pace.target = _
  split
  · rw [State.testLeaving_pace]; rfl
  · rfl

theorem State.settle_grows (s before : State) (planning test : Bool) :
    RepGrows s.rep (s.settle before planning test).rep := by
  obtain ⟨u, w, -, e⟩ := s.settle_cases before planning test
  rw [e]
  have hr : s.startTransfers.rep = s.rep := s.startTransfers_keep State.rep fun _ _ => rfl
  exact (hr ▸ w.rep).trans (u.finish_grows before test)

/-! ### The speed window (R13, R14) -/

/-- The reports of a window end: OVERSPEED, then STOPPED or MOVING (R15). -/
def State.windowReports (s : State) : State :=
  let v := min s.loop.windowCount.toNat 600
  let n := min (s.loop.standstill + 1) 3
  let r1 := if 600 < s.loop.windowCount ∧ s.loop.overspeed = false then
    s.queueReport (.loop s.loop.lock .overspeed) else s
  if v = 0 ∧ n = 3 ∧ s.loop.motion = .moving then r1.queueReport (.loop s.loop.lock .stopped)
  else if v ≠ 0 ∧ s.loop.motion = .stopped then r1.queueReport (.loop s.loop.lock .moving)
  else r1

/-- The loop after a window end (R13, R14). -/
def LoopTracker.windowed (c : LoopTracker) : LoopTracker :=
  let v := min c.windowCount.toNat 600
  let n := min (c.standstill + 1) 3
  { c with
    vs := v, overspeed := decide (600 < c.windowCount), windowCount := 0, windowTimer := 0
    standstill := if v = 0 then n else 0
    motion := if v ≠ 0 then .moving else if n = 3 then .stopped else c.motion }

theorem State.formSpeed_eq (s : State) :
    s.formSpeed = { s with
      loop := { s.loop with
        vs := min s.loop.windowCount.toNat 600, overspeed := decide (600 < s.loop.windowCount)
        windowCount := 0, windowTimer := 0 }
      rep := (if 600 < s.loop.windowCount ∧ s.loop.overspeed = false then
        s.queueReport (.loop s.loop.lock .overspeed) else s).rep } := by
  have hc : (decide ((Config.vsMax : Int) < s.loop.windowCount) && !s.loop.overspeed) = true ↔
      600 < s.loop.windowCount ∧ s.loop.overspeed = false := by
    rw [Bool.and_eq_true, decide_eq_true_iff, Bool.not_eq_true']
    exact Iff.rfl
  unfold State.formSpeed
  dsimp only
  by_cases h : 600 < s.loop.windowCount ∧ s.loop.overspeed = false
  · rw [if_pos (hc.2 h), if_pos h]; rfl
  · rw [if_neg (mt hc.1 h), if_neg h]; rfl

theorem State.formMotion_eq (s : State) :
    s.formMotion = { s with
      loop := { s.loop with
        standstill := if s.loop.vs = 0 then min (s.loop.standstill + 1) 3 else 0
        motion := if s.loop.vs ≠ 0 then .moving
          else if min (s.loop.standstill + 1) 3 = 3 then .stopped else s.loop.motion }
      rep := (if s.loop.vs = 0 ∧ min (s.loop.standstill + 1) 3 = 3 ∧ s.loop.motion = .moving then
          s.queueReport (.loop s.loop.lock .stopped)
        else if s.loop.vs ≠ 0 ∧ s.loop.motion = .stopped then
          s.queueReport (.loop s.loop.lock .moving)
        else s).rep } := by
  unfold State.formMotion
  dsimp only
  by_cases hv : s.loop.vs = 0
  · simp only [if_pos hv, if_neg (not_not.2 hv)]
    by_cases hn : min (s.loop.standstill + 1) 3 = 3
    · by_cases hm : s.loop.motion = .moving
      · simp only [if_pos hn, if_pos (And.intro hn hm), if_pos (And.intro hv (And.intro hn hm))]; rfl
      · have hs : s.loop.motion = .stopped := by cases h : s.loop.motion <;> simp_all
        have h1 : ¬ (s.loop.vs = 0 ∧ min (s.loop.standstill + 1) 3 = 3 ∧ s.loop.motion = .moving) :=
          fun h => hm h.2.2
        have h2 : ¬ (s.loop.vs ≠ 0 ∧ s.loop.motion = .stopped) := fun h => h.1 hv
        have h3 : ¬ (min (s.loop.standstill + 1) 3 = 3 ∧ s.loop.motion = .moving) := fun h => hm h.2
        simp only [if_neg h1, if_neg h2, if_neg h3, if_pos hn]
        rw [← hs]; rfl
    · have h1 : ¬ (s.loop.vs = 0 ∧ min (s.loop.standstill + 1) 3 = 3 ∧ s.loop.motion = .moving) :=
        fun h => hn h.2.1
      have h2 : ¬ (s.loop.vs ≠ 0 ∧ s.loop.motion = .stopped) := fun h => h.1 hv
      have h3 : ¬ (min (s.loop.standstill + 1) 3 = 3 ∧ s.loop.motion = .moving) := fun h => hn h.1
      simp only [if_neg h1, if_neg h2, if_neg h3, if_neg hn]; rfl
  · have h1 : ¬ (s.loop.vs = 0 ∧ min (s.loop.standstill + 1) 3 = 3 ∧ s.loop.motion = .moving) :=
      fun h => hv h.1
    simp only [if_neg hv, if_pos (show s.loop.vs ≠ 0 from hv), if_neg h1]
    by_cases hm : s.loop.motion = .stopped
    · rw [if_pos hm, if_pos ⟨hv, hm⟩]; rfl
    · have hs : s.loop.motion = .moving := by cases h : s.loop.motion <;> simp_all
      rw [if_neg hm, if_neg (fun h => hm h.2), ← hs]; rfl

/-- R13, R14: the speed and the motion are formed, and their reports are queued. -/
theorem State.formed_eq (s : State) :
    s.formSpeed.formMotion = { s with loop := s.loop.windowed, rep := s.windowReports.rep } := by
  rw [State.formMotion_eq, State.formSpeed_eq]
  refine congrArg (fun r => ({ s with loop := s.loop.windowed, rep := r } : State)) ?_
  unfold State.windowReports
  dsimp only
  split_ifs <;> rfl

theorem exec_windowEnd {s : State} (hr : s.pins.rstLow = false) :
    exec .windowEnd s = .next (({ s with loop := s.loop.windowed, rep := s.windowReports.rep } : State).windowBlocks.finish s
      false) := by
  rw [← State.formed_eq]
  change execWindowEnd s = _
  unfold execWindowEnd
  exact State.unlessHeld_of_rstHigh hr _

/-! ### The Launch Planner and the Pace Generator at a window end (R132, R138) -/

/-- R141: on a standing loop the paces start afresh. -/
theorem State.paceTake_of_stopped {s : State} (h : s.loop.motion = .stopped) (l : Lane) :
    (s.paceTake.pace.lanes.get l).index = 15 ∧ (s.paceTake.pace.lanes.get l).valid = false ∧
      (s.paceTake.pace.lanes.get l).hyst = 0 := by
  unfold State.paceTake State.paceWindow
  rw [if_pos h]
  generalize State.paceLaneWindow _ _ .l1 = u
  cases l <;> exact ⟨rfl, rfl, rfl⟩

/-- Both orders of the two blocks come to one planner's work and one pace taken. -/
theorem State.windowBlocks_split (s : State) :
    ∃ u v : State, PlanWork s u ∧ v.loop = s.loop ∧ s.windowBlocks = { u with
      pace := v.paceTake.pace, freeCount := s.windowBlocks.freeCount } := by
  obtain ⟨n, h | h⟩ := s.windowBlocks_cases
  · refine ⟨s.plannerWindow, s.plannerWindow, s.plannerWindow_planWork,
      s.plannerWindow_planWork.loop, ?_⟩
    rw [h, State.paceTake_eq]; rfl
  · have w := s.paceTake.plannerWindow_planWork
    have hp : s.paceTake.plannerWindow.pace = s.paceTake.pace := w.pace
    refine ⟨{ s.paceTake.plannerWindow with pace := s.pace }, s, ?_, rfl, ?_⟩
    · rw [State.paceTake_eq] at w ⊢
      exact { loop := w.loop, doubt := w.doubt, pace := rfl, port := w.port, table := w.table
              pins := w.pins, outs := w.outs, tick := w.tick, pending := w.pending, trays := w.trays
              line := w.line, queue := w.queue, disabled := w.disabled, rep := w.rep, lanes := w.lanes
              idle := w.idle, noPlans := w.noPlans }
    · rw [h, ← hp]; rfl

/-- Settles O16: speed, motion and their reports, then the blocks and the end of the event, which keep the loop and
queue behind. -/
theorem windowEndFormsSpeedAndMotion : Obligations.WindowEndFormsSpeedAndMotion := by
  unfold Obligations.WindowEndFormsSpeedAndMotion
  intro s hr
  dsimp only
  generalize hu : ({ s with loop := s.loop.windowed, rep := s.windowReports.rep } : State) = u
  have hexec := exec_windowEnd hr
  rw [hu] at hexec
  obtain ⟨a, b, w, hb, e⟩ := u.windowBlocks_split
  have k := u.windowBlocks.finish_kept s false
  have g := u.windowBlocks.finish_grows s false
  have hp := u.windowBlocks.finish_samePace s false
  have hloop : u.windowBlocks.loop = s.loop.windowed := by rw [e, ← hu] at *; exact w.loop
  refine ⟨_, hexec, k.loop.trans hloop, ?_, ?_, ?_, ?_, fun hm l => ?_⟩
  · rw [k.pins, e]; rw [← hu] at w; exact w.pins
  · rw [k.port, e]; rw [← hu] at w; exact w.port
  · rw [k.committed, e]; rw [← hu] at w; exact congrArg ConfigTable.committed w.table
  · have hr2 : RepGrows u.rep (u.windowBlocks.finish s false).rep := by
      refine RepGrows.trans ?_ g
      rw [e]; exact w.rep
    obtain ⟨bytes, h⟩ := hr2.fifo
    rw [h, ← hu]
    exact List.prefix_append _ _
  · have hm' : b.loop.motion = .stopped := by
      rw [hb, ← hu]
      rw [k.loop, hloop] at hm
      exact hm
    obtain ⟨h1, h2, h3⟩ := State.paceTake_of_stopped hm' l
    have hl := hp l
    have hpace : u.windowBlocks.pace = b.paceTake.pace := by rw [e]
    rw [hpace] at hl
    exact ⟨hl.index.trans h1, hl.valid.trans h2, hl.hyst.trans h3⟩

end Sys2Proof.Machine
end

section
/-! SUPPORT. What falls at a position newly reached (R9, R11, R12), and the counts and markers that move the loop
(R1 to R6). -/

open Sys2Proof Sys2Proof.Machine

namespace Sys2Proof.Machine

/-! ### A list with one order (log 4) -/

theorem State.freeOrder_of_short {α : Type} (s : State) {l : List α} (h : l.length ≤ 1) :
    s.freeOrder l = l := if_pos h

theorem State.afterOrder_of_short {α : Type} (s : State) {l : List α} (h : l.length ≤ 1) :
    s.afterOrder l = s := if_pos h

/-! ### A position newly reached -/

theorem State.takeTriggersAt_nil {s : State} {p : Nat} (h : s.triggersAt p = []) :
    s.takeTriggersAt p = s := by
  have hl : (s.triggersAt p).length ≤ 1 := by simp [h]
  rw [State.takeTriggersAt, s.freeOrder_of_short hl, s.afterOrder_of_short hl, h]
  rfl

theorem State.takeTriggersAt_one {s : State} {p : Nat} {l : Lane} {sl : Slot}
    (h : s.triggersAt p = [(l, sl)]) : s.takeTriggersAt p = s.takeTrigger l sl := by
  have hl : (s.triggersAt p).length ≤ 1 := by simp [h]
  rw [State.takeTriggersAt, s.freeOrder_of_short hl, s.afterOrder_of_short hl, h]
  rfl

theorem State.reachAimsAt_none {s : State} {p : Nat} (h : ∀ l sl, s.aims.get l sl ≠ some p) :
    s.reachAimsAt p = s := by
  simp only [State.reachAimsAt, allSlots, List.foldl_cons, List.foldl_nil, if_neg (h _ _)]

theorem State.trayEvents_nil {s : State} {p : Nat} (h : s.trayEventsAt p = []) : s.trayEvents p = s := by
  have hl : (s.trayEventsAt p).length ≤ 1 := by simp [h]
  rw [State.trayEvents, s.freeOrder_of_short hl, s.afterOrder_of_short hl, h]
  rfl

theorem State.trayEvents_one {s : State} {p : Nat} {e : TrayEvent} (h : s.trayEventsAt p = [e]) :
    s.trayEvents p = s.trayEvent e := by
  have hl : (s.trayEventsAt p).length ≤ 1 := by simp [h]
  rw [State.trayEvents, s.freeOrder_of_short hl, s.afterOrder_of_short hl, h]
  rfl

/-- The aims held at a position empty, their plans are marked, and nothing else moves (R12). -/
theorem State.reachAimsAt_eq (s : State) (p : Nat) :
    s.reachAimsAt p = { s with aims := (s.reachAimsAt p).aims, plans := (s.reachAimsAt p).plans } := by
  have hall : ∀ (xs : List (Lane × Slot)) (u : State), ∃ a b,
      xs.foldl (fun s x => if s.aims.get x.1 x.2 = some p then s.reachAim x.1 x.2 else s) u =
        { u with aims := a, plans := b } := by
    intro xs
    induction xs with
    | nil => exact fun u => ⟨u.aims, u.plans, rfl⟩
    | cons x xs ih =>
      intro u
      rw [List.foldl_cons]
      obtain ⟨a, b, e⟩ := ih (if u.aims.get x.1 x.2 = some p then u.reachAim x.1 x.2 else u)
      rw [e]
      exact ⟨a, b, by split <;> rfl⟩
  obtain ⟨a, b, e⟩ := hall allSlots s
  rw [State.reachAimsAt, e]

theorem State.reachAimsAt_trayEventsAt (s : State) (p : Nat) :
    (s.reachAimsAt p).trayEventsAt p = s.trayEventsAt p := by
  rw [State.reachAimsAt_eq]; rfl

theorem State.newlyReached_quiet {s : State} {p : Nat} (ht : s.triggersAt p = [])
    (ha : ∀ l sl, s.aims.get l sl ≠ some p) : s.newlyReached p = (s.trayEvents p).countDoubt := by
  rw [State.newlyReached, State.takeTriggersAt_nil ht, State.reachAimsAt_none ha]

/-! ### The window count (R1) -/

/-- A state with the levels of CHK and LVL and the window count of a count (R1, R9). -/
def State.counted (s : State) (chk lvl : Bool) (n : Int) : State :=
  { s with
    pins := { s.pins with chk := chk, lvl := lvl }, loop := { s.loop with windowCount := n } }

theorem State.sample_countWindow {s : State} (chk lvl : Bool) {forward : Bool}
    (hlo : -65535 ≤ s.loop.windowCount + (if forward then 1 else -1))
    (hhi : s.loop.windowCount + (if forward then 1 else -1) ≤ 65535) :
    (s.sample chk lvl).countWindow forward =
      s.counted chk lvl (s.loop.windowCount + if forward then 1 else -1) := by
  have hn : ¬ ((Config.windowCountMax : Int) < s.loop.windowCount + (if forward then 1 else -1) ∨
      s.loop.windowCount + (if forward then 1 else -1) < -(Config.windowCountMax : Int)) := by
    simp only [Config.windowCountMax]; omega
  unfold State.countWindow State.afterWindow State.boundedWindow
  dsimp only
  rw [if_neg (by exact hn), if_neg (by exact hn)]
  rfl

/-- The count as it is taken, the window count free beyond its range (log 5). -/
theorem State.sample_countWindow_eq (s : State) (chk lvl forward : Bool) :
    ∃ n k, (s.sample chk lvl).countWindow forward =
      { s.counted chk lvl n with freeCount := k } := by
  have hk : ∀ n, ∃ k, (s.sample chk lvl).afterWindow n = (s.sample chk lvl).setFreeCount k := fun n => by
    unfold State.afterWindow
    split
    · exact ⟨_, rfl⟩
    · exact ⟨s.freeCount, rfl⟩
  unfold State.countWindow
  dsimp only
  obtain ⟨k, hk⟩ := hk ((s.sample chk lvl).loop.windowCount + if forward = true then 1 else -1)
  rw [hk]
  exact ⟨_, k, rfl⟩

theorem exec_encoderCount {s : State} (hr : s.pins.rstLow = false) (forward chk lvl : Bool) :
    exec (.encoderCount forward chk lvl) s = .next
      ((((s.sample chk lvl).countWindow forward).loopCount forward).settle s
        (s.countArrives forward) false) := by
  change execEncoderCount forward chk lvl s = _
  unfold execEncoderCount
  exact State.unlessHeld_of_rstHigh hr _

/-! ### A forward count (R1) -/

/-- The loop at the next position, the levels and the counts of a forward count with it (R1). -/
def State.advanced (s : State) (chk lvl : Bool) : State :=
  { s with
    pins := { s.pins with chk := chk, lvl := lvl }
    loop := { s.loop with
      S := s.nextS, frontier := s.nextS, travel := s.loop.travel + 1
      windowCount := s.loop.windowCount + 1 } }

structure State.ReachesNext (s : State) : Prop where
  released : s.pins.rstLow = false
  locked : s.locked = true
  backlog : s.loop.backlog = 0
  travel : s.loop.travel + 1 ≤ s.loopLength + s.cfgSlip
  windowLow : -65535 ≤ s.loop.windowCount
  windowHigh : s.loop.windowCount ≤ 65534

theorem State.reachesNext_iff (s : State) : s.reachesNext = true ↔ s.ReachesNext := by
  simp only [State.reachesNext, Bool.and_eq_true, beq_iff_eq, decide_eq_true_iff, Bool.not_eq_true']
  exact ⟨fun ⟨⟨⟨⟨⟨h1, h2⟩, h3⟩, h4⟩, h5⟩, h6⟩ => ⟨h1, h2, h3, h4, h5, h6⟩,
    fun ⟨h1, h2, h3, h4, h5, h6⟩ => ⟨⟨⟨⟨⟨h1, h2⟩, h3⟩, h4⟩, h5⟩, h6⟩⟩

theorem State.reachesQuietly_iff (s : State) : s.reachesQuietly = true ↔
    s.ReachesNext ∧ s.triggersAt s.nextS = [] ∧ ∀ l sl, s.aims.get l sl ≠ some s.nextS := by
  simp only [State.reachesQuietly, Bool.and_eq_true, State.reachesNext_iff, List.isEmpty_iff,
    List.all_eq_true, bne_iff_ne, and_assoc]
  refine and_congr_right fun _ => and_congr_right fun _ => ⟨fun h l sl => h (l, sl) ?_, fun h x _ => h _ _⟩
  cases l <;> cases sl <;> decide

theorem State.forwardCount_counted {s : State} (h : s.ReachesNext) (chk lvl : Bool) :
    ((s.sample chk lvl).countWindow true).loopCount true =
      (s.advanced chk lvl).newlyReached s.nextS := by
  have hlo := h.windowLow
  have hhi := h.windowHigh
  have hb := h.backlog
  rw [State.sample_countWindow (forward := true) chk lvl (by simp only [if_true]; omega)
    (by simp only [if_true]; omega)]
  generalize hu : s.counted chk lvl _ = u
  have hl : u.locked = true := by rw [← hu]; exact h.locked
  have hs : (u.stepForward.modLoop fun c => { c with travel := c.travel + 1 }) = s.advanced chk lvl := by
    rw [← hu]
    simp only [State.stepForward, State.counted, State.modLoop, hb, if_true]
    rw [← hb]
    rfl
  have ho : (s.advanced chk lvl).markerOverdue = false :=
    decide_eq_false (Nat.not_lt.2 h.travel)
  have hb' : u.loop.backlog = 0 := by rw [← hu]; exact hb
  have hn : u.nextS = s.nextS := by rw [← hu]; rfl
  rw [State.loopCount, if_pos hl, if_pos rfl, State.forwardCount]
  dsimp only
  rw [hs, hn, if_pos hb', if_neg (by rw [ho]; exact Bool.false_ne_true)]

/-- A forward count to a new position: the loop there, what falls there, and the end of the event. -/
theorem exec_reachesNext {s : State} (h : s.ReachesNext) (chk lvl : Bool) :
    exec (.encoderCount true chk lvl) s = .next
      (((s.advanced chk lvl).newlyReached s.nextS).settle s (s.countArrives true) false) := by
  rw [exec_encoderCount h.released, State.forwardCount_counted h]

/-- A forward count to a position at which nothing but tray events falls. -/
theorem exec_reachesQuietly {s : State} (h : s.reachesQuietly = true) (chk lvl : Bool) :
    exec (.encoderCount true chk lvl) s = .next
      ((((s.advanced chk lvl).trayEvents s.nextS).countDoubt).settle s (s.countArrives true) false) := by
  obtain ⟨hn, ht, ha⟩ := s.reachesQuietly_iff.1 h
  rw [exec_reachesNext hn, State.newlyReached_quiet (s := s.advanced chk lvl) ht ha]

theorem State.countArrives_of_no_arrival {s : State} (h : ∀ k, .arrival k ∉ s.trayEventsAt s.nextS)
    (forward : Bool) : s.countArrives forward = false := by
  have ha : s.arrivalAt s.nextS = none := by
    cases e : s.arrivalAt s.nextS with
    | none => rfl
    | some k => exact absurd (by simp [State.trayEventsAt, e]) (h k)
  simp [State.countArrives, ha]

/-! ### The end of an event on a station not LEAVING -/

theorem State.settle_of_not_leaving (s before : State) (planning test : Bool)
    (h : s.table.station ≠ .leaving) :
    ∃ u, PlanWork s.startTransfers u ∧ EventEnd u (s.settle before planning test) := by
  obtain ⟨u, w, -, e⟩ := s.settle_cases before planning test
  refine ⟨u, w, ?_⟩
  rw [e]
  refine State.finish_eventEnd _ _ _ (.inr ?_)
  have ht : u.updateFeeds.table.station = s.table.station := by
    rw [State.updateFeeds_eq]
    exact congrArg ConfigTable.station
      (w.table.trans (s.startTransfers_keep State.table fun _ _ => rfl))
  simp [State.leavingDone, ht, h]

theorem State.settle_table_doubt (s before : State) (planning test : Bool)
    (h : s.table.station ≠ .leaving) :
    (s.settle before planning test).table = s.table ∧
      (s.settle before planning test).doubt = s.doubt := by
  obtain ⟨u, w, e⟩ := s.settle_of_not_leaving before planning test h
  exact ⟨(e.table.trans w.table).trans (s.startTransfers_keep State.table fun _ _ => rfl),
    (e.doubt.trans w.doubt).trans (s.startTransfers_keep State.doubt fun _ _ => rfl)⟩

/-! ### O12 -/

theorem State.counted_atRest {s : State} (h : s.atRest = true) (chk lvl : Bool) (n : Int) :
    (s.counted chk lvl n).atRest = true :=
  State.atRest_of_same h (fun _ => rfl) rfl rfl

/-- Settles O12: each count as the loop takes it; the end of the event leaves a state at rest as it is. -/
theorem encoderCountMovesCounts : Obligations.EncoderCountMovesCounts := by
  unfold Obligations.EncoderCountMovesCounts
  intro s chk lvl hr
  refine ⟨fun forward hrest hl hlo hhi => ?_, fun hrest hl hb hlo hhi => ?_,
    fun hrest hl hb ht hlo hhi => ?_, fun hrest hq hev => ?_, fun hn => ?_⟩
  · have hnl : s.locked = false := by simp [State.locked, hl]
    have ha : s.countArrives forward = false := by simp [State.countArrives, hnl]
    rw [exec_encoderCount hr, State.sample_countWindow chk lvl hlo hhi, State.loopCount,
      if_neg (by exact fun h => Bool.false_ne_true (hnl.symm.trans h)), ha]
    exact congrArg Host.Outcome.next (State.settle_self (State.plansNothing_of_plans rfl)
      (State.leavesNothing_of_txq rfl) (State.counted_atRest hrest chk lvl _))
  · have hll := s.locked_iff.2 hl
    have ha : s.countArrives false = false := by simp [State.countArrives]
    have hw := State.sample_countWindow (s := s) (forward := false) chk lvl
      (by simp only [Bool.false_eq_true, if_false]; omega)
      (by simp only [Bool.false_eq_true, if_false]; omega)
    have hb' : ¬ (s.loopLength / 2 < s.loop.backlog + 1) := by omega
    have hc : ((s.sample chk lvl).countWindow false).loopCount false = { s with
        pins := { s.pins with chk := chk, lvl := lvl }
        loop := { s.loop with
          S := (s.loop.S + (s.loopLength - 1)) % s.loopLength
          backlog := s.loop.backlog + 1
          travel := s.loop.travel - 1
          windowCount := s.loop.windowCount - 1 } } := by
      rw [hw, State.loopCount, if_pos (by exact hll), if_neg Bool.false_ne_true, State.backwardCount,
        if_neg (by exact hb')]
      rfl
    rw [exec_encoderCount hr, hc, ha]
    exact congrArg Host.Outcome.next (State.settle_self (State.plansNothing_of_plans rfl)
      (State.leavesNothing_of_txq rfl) (State.atRest_of_same hrest (fun _ => rfl) rfl rfl))
  · have hll := s.locked_iff.2 hl
    have hb0 : s.loop.backlog ≠ 0 := by omega
    have ha : s.countArrives true = false := by simp [State.countArrives, hb0]
    have hw := State.sample_countWindow (s := s) (forward := true) chk lvl
      (by simp only [if_true]; omega) (by simp only [if_true]; omega)
    have ho : ¬ (s.loopLength + s.cfgSlip < s.loop.travel + 1) := by omega
    have hc : ((s.sample chk lvl).countWindow true).loopCount true = { s with
        pins := { s.pins with chk := chk, lvl := lvl }
        loop := { s.loop with
          S := (s.loop.S + 1) % s.loopLength
          backlog := s.loop.backlog - 1
          travel := s.loop.travel + 1
          windowCount := s.loop.windowCount + 1 } } := by
      rw [hw, State.loopCount, if_pos (by exact hll), if_pos rfl, State.forwardCount]
      dsimp only
      rw [if_neg (by exact hb0), State.stepForward, State.modLoop, State.modLoop]
      simp only [State.counted, if_neg hb0]
      rw [State.markerOverdue, if_neg (by rw [decide_eq_true_iff]; exact ho)]
      rfl
    rw [exec_encoderCount hr, hc, ha]
    exact congrArg Host.Outcome.next (State.settle_self (State.plansNothing_of_plans rfl)
      (State.leavesNothing_of_txq rfl) (State.atRest_of_same hrest (fun _ => rfl) rfl rfl))
  · rw [exec_reachesQuietly hq, State.trayEvents_nil (s := s.advanced chk lvl) hev,
      State.countArrives_of_no_arrival (by simp [hev])]
    exact congrArg Host.Outcome.next (State.settle_self (State.plansNothing_of_plans rfl)
      (State.leavesNothing_of_txq rfl) (State.atRest_of_same hrest (fun _ => rfl) rfl rfl))
  · rw [State.reachesNext_iff] at hn
    obtain ⟨u, w, e⟩ := (s.advanced chk lvl).newlyReached_planWork s.nextS hn.locked
    have hexec := exec_reachesNext hn chk lvl
    rw [e] at hexec
    have k := u.countDoubt.settle_kept s (s.countArrives true) false
    refine ⟨_, hexec, k.loop.trans w.loop, k.pins.trans w.pins, k.port.trans w.port,
      k.committed.trans (congrArg ConfigTable.committed w.table),
      k.working.trans (congrArg ConfigTable.working w.table), fun hs => ?_⟩
    obtain ⟨htab, hd⟩ := u.countDoubt.settle_table_doubt s (s.countArrives true) false
      (by rw [show u.countDoubt.table = u.table from rfl, w.table]; exact hs)
    exact ⟨hd.trans (congrArg (· - 1) w.doubt), htab.trans w.table⟩

end Sys2Proof.Machine
end

section
/-! SUPPORT. A missing marker and a marker taken (R3 to R6). -/

open Sys2Proof Sys2Proof.Machine

namespace Sys2Proof.Machine

/-! ### The first missing marker (R6) -/

/-- R6: a first missing marker, field by field. -/
theorem State.declareMissing_first {s : State} (h : s.loop.missing = 0) :
    s.declareMissing = { s with
      loop := { s.loop with
        missing := 1, travel := s.loop.travel - s.loopLength, lock := .coasting }
      rep := (s.queueReport (.loop .coasting .coasting)).rep } := by
  rw [State.declareMissing, if_pos h]
  rfl

theorem exec_markerMissing {s : State} (hr : s.pins.rstLow = false) (hl : s.locked = true) :
    exec .markerMissing s = .next
      (((s.modLoop fun c => { c with travel := s.loopLength + s.cfgSlip + 1 }).declareMissing).settle
        s false false) := by
  change execMarkerMissing s = _
  unfold execMarkerMissing
  refine (State.unlessHeld_of_rstHigh hr _).trans ?_
  rw [if_pos hl]

/-- The state after a forward count that takes K beyond its limit (R1, R6). -/
def State.overdue (s : State) (chk lvl : Bool) : State :=
  { s with
    pins := { s.pins with chk := chk, lvl := lvl }
    loop := { s.loop with
      S := s.nextS, backlog := s.loop.backlog - 1
      frontier := if s.loop.backlog = 0 then s.nextS else s.loop.frontier
      travel := s.loop.travel + 1, windowCount := s.loop.windowCount + 1 } }

theorem State.stepForward_counted (s : State) (chk lvl : Bool) :
    ((s.counted chk lvl (s.loop.windowCount + 1)).stepForward.modLoop
      fun c => { c with travel := c.travel + 1 }) = s.overdue chk lvl := by
  by_cases hb : s.loop.backlog = 0
  · simp only [State.stepForward, State.counted, State.modLoop, State.overdue, hb, if_true]
    rfl
  · simp only [State.stepForward, State.counted, State.modLoop, State.overdue, hb, if_false]
    rfl

theorem State.markerOverdue_overdue {s : State} (h : s.loopLength + s.cfgSlip < s.loop.travel + 1)
    (chk lvl : Bool) : (s.overdue chk lvl).markerOverdue = true :=
  decide_eq_true h

/-- The count of a first missing marker, whichever of its two parts is taken first. -/
theorem State.overdue_loopCount {s : State} (hl : s.locked = true) (hm : s.loop.missing = 0)
    (chk lvl : Bool) (ht : s.loopLength + s.cfgSlip < s.loop.travel + 1)
    (hlo : -65535 ≤ s.loop.windowCount) (hhi : s.loop.windowCount ≤ 65534)
    (hq : s.loop.backlog = 0 → s.triggersAt s.nextS = [] ∧ s.trayEventsAt s.nextS = [] ∧
      ∀ l sl, s.aims.get l sl ≠ some s.nextS) :
    ∃ n, ((s.sample chk lvl).countWindow true).loopCount true = { s.overdue chk lvl with
      loop := { (s.overdue chk lvl).loop with
        missing := 1, travel := s.loop.travel + 1 - s.loopLength, lock := .coasting }
      rep := (s.queueReport (.loop .coasting .coasting)).rep
      doubt := if s.loop.backlog = 0 then s.doubt - 1 else s.doubt
      freeCount := n } := by
  rw [State.sample_countWindow (forward := true) chk lvl (by simp only [if_true]; omega)
    (by simp only [if_true]; omega)]
  simp only [if_true]
  have hs := s.stepForward_counted chk lvl
  have ho := State.markerOverdue_overdue ht chk lvl
  generalize hu : s.counted chk lvl (s.loop.windowCount + 1) = u at hs ⊢
  have hl' : u.locked = true := by rw [← hu]; exact hl
  have hb' : u.loop.backlog = s.loop.backlog := by rw [← hu]; rfl
  have hn : u.nextS = s.nextS := by rw [← hu]; rfl
  rw [State.loopCount, if_pos hl', if_pos rfl, State.forwardCount]
  dsimp only
  rw [hs, hn, hb']
  by_cases hb : s.loop.backlog = 0
  · obtain ⟨hr, he, ha⟩ := hq hb
    refine ⟨s.freeCount + 1, ?_⟩
    have hfirst := State.declareMissing_first (s := (s.overdue chk lvl).bumpFree) hm
    have hnew : (s.overdue chk lvl).bumpFree.newlyReached s.nextS = (s.overdue chk lvl).bumpFree.countDoubt := by
      rw [State.newlyReached_quiet (s := (s.overdue chk lvl).bumpFree) hr ha,
        State.trayEvents_nil (s := (s.overdue chk lvl).bumpFree) he]
    rw [if_pos hb, if_pos hb, if_pos ho, hnew, State.declareMissing_first (s := (s.overdue chk lvl).bumpFree.countDoubt) hm,
      hfirst]
    split
    · rfl
    · rw [if_pos (by rfl)]
      generalize hv : ({ (s.overdue chk lvl).bumpFree with loop := _, rep := _ } : State) = v
      have hr' : v.triggersAt s.nextS = [] := by rw [← hv]; exact hr
      have he' : v.trayEventsAt s.nextS = [] := by rw [← hv]; exact he
      have ha' : ∀ l sl, v.aims.get l sl ≠ some s.nextS := by rw [← hv]; exact ha
      rw [State.newlyReached_quiet hr' ha', State.trayEvents_nil he', ← hv]
      rfl
  · exact ⟨s.freeCount, by rw [if_neg hb, if_neg hb, if_pos ho, State.declareMissing_first (s := s.overdue chk lvl) hm]; rfl⟩

/-- Settles O15: at its command, or inside a count, the first missing marker moves the counts and queues its
report. -/
theorem missingMarkerCoasts : Obligations.MissingMarkerCoasts := by
  unfold Obligations.MissingMarkerCoasts
  intro s hr hl hm
  have hll := s.locked_iff.2 hl
  refine ⟨?_, fun chk lvl ht hlo hhi hq => ?_⟩
  · have hexec := exec_markerMissing hr hll
    rw [State.declareMissing_first (s := s.modLoop _) (by exact hm)] at hexec
    have e := State.settle_quiet (before := s) (u := { s with
      loop := { s.loop with
        missing := 1, travel := s.loopLength + s.cfgSlip + 1 - s.loopLength, lock := .coasting }
      rep := (s.queueReport (.loop .coasting .coasting)).rep }) rfl rfl
    refine ⟨_, hexec, ?_, e.rep, e.trays, e.doubt, e.plans, e.trig, e.aims, e.txq, e.line, e.table, e.port⟩
    refine e.loop.trans ?_
    have : s.loopLength + s.cfgSlip + 1 - s.loopLength = s.cfgSlip + 1 := by omega
    rw [this]
  · obtain ⟨n, hc⟩ := State.overdue_loopCount hll hm chk lvl ht hlo hhi hq
    have ha : s.countArrives true = false := by
      by_cases hb : s.loop.backlog = 0
      · exact State.countArrives_of_no_arrival (by simp [(hq hb).2.1]) true
      · simp [State.countArrives, hb]
    have hexec := exec_encoderCount hr true chk lvl
    rw [hc, ha] at hexec
    generalize hu : ({ s.overdue chk lvl with loop := _, rep := _, doubt := _, freeCount := _ } : State) = u
      at hexec
    have e := State.settle_quiet (u := u) (before := s) (by rw [← hu]; rfl) (by rw [← hu]; rfl)
    exact ⟨_, hexec, by rw [e.loop, ← hu]; rfl, by rw [e.rep, ← hu], by rw [e.trays, ← hu]; rfl,
      by rw [e.doubt, ← hu], by rw [e.plans, ← hu]; rfl, by rw [e.trig, ← hu]; rfl,
      by rw [e.aims, ← hu]; rfl, by rw [e.txq, ← hu]; rfl, by rw [e.table, ← hu]; rfl⟩

/-! ### A marker taken (R3 to R5) -/

theorem exec_markerPulse {s : State} (hr : s.pins.rstLow = false) (chk lvl : Bool) :
    exec (.markerPulse chk lvl) s = .next
      ((if s.locked then (s.sample chk lvl).testMarker
        else if s.hasConfig then (s.sample chk lvl).acquireLock else s.sample chk lvl).settle s
          s.markerArrives false) := by
  change execMarkerPulse chk lvl s = _
  unfold execMarkerPulse
  exact State.unlessHeld_of_rstHigh hr _

/-- R4: what an accepted marker leaves, field by field. -/
theorem State.confirmLock_eq {s : State} (h : s.loop.lock ≠ .unlocked) :
    s.confirmLock = { s with
      loop := { s.loop with lock := .locked, travel := 0, missing := 0 }
      rep := (if s.loop.lock = .coasting then s.queueReport (.loop .locked .locked) else s).rep } := by
  unfold State.confirmLock
  by_cases hc : s.loop.lock = .coasting
  · rw [if_pos hc, if_pos hc]; rfl
  · have hl : s.loop.lock = .locked := by cases e : s.loop.lock <;> simp_all
    rw [if_neg hc, if_neg hc, ← hl]; rfl

/-- R4: a marker that is confirmed after a correction which moved the loop alone. -/
theorem State.confirmLock_settle {s v : State} (hl : v.loop.lock = s.loop.lock)
    (hn : s.loop.lock ≠ .unlocked) (hr : v.rep = s.rep) (hp : v.plans = s.plans) (hq : v.txq = s.txq)
    (ht : v.trays = s.trays) :
    let t := v.confirmLock.settle s false false
    t.loop = { v.loop with lock := .locked, travel := 0, missing := 0 } ∧
      t.rep = (if s.loop.lock = .coasting then s.queueReport (.loop .locked .locked) else s).rep ∧
      t.trays = s.trays ∧ t.plans = s.plans ∧ t.txq = s.txq := by
  have hc := State.confirmLock_eq (s := v) (by rw [hl]; exact hn)
  have e : EventEnd v.confirmLock (v.confirmLock.settle s false false) :=
    State.settle_quiet (by rw [hc]; exact hp) (by rw [hc]; exact hq)
  refine ⟨e.loop.trans (by rw [hc]), ?_, e.trays.trans (by rw [hc]; exact ht),
    e.plans.trans (by rw [hc]; exact hp), e.txq.trans (by rw [hc]; exact hq)⟩
  rw [e.rep, hc, hl]
  dsimp only
  split
  · exact State.queueReport_rep_congr hr _
  · exact hr

/-- R1: the loop after `n` forward counts of a correction. -/
def LoopTracker.corrected (c : LoopTracker) (len n : Nat) : LoopTracker :=
  { c with
    S := (c.S + n) % len, backlog := c.backlog - n
    frontier := if n ≤ c.backlog then c.frontier else (c.S + n) % len }

theorem State.correctForwardOne_loop {s : State} (hl : s.locked = true) :
    s.correctForwardOne.loop = s.loop.corrected s.loopLength 1 ∧
      s.correctForwardOne.loopLength = s.loopLength := by
  have hl' := s.stepForward_locked.trans hl
  unfold State.correctForwardOne
  by_cases hb : s.loop.backlog = 0
  · rw [if_pos hb, State.newlyReached_loop _ _ hl']
    refine ⟨?_, ((s.stepForward.newlyReached_loopLength s.nextS hl').1).trans rfl⟩
    simp [State.stepForward, LoopTracker.corrected, State.nextS, hb]
  · rw [if_neg hb]
    refine ⟨?_, rfl⟩
    have h1 : 1 ≤ s.loop.backlog := by omega
    simp [State.stepForward, LoopTracker.corrected, State.nextS, hb, h1]

theorem State.correctForward_loop (n : Nat) : ∀ {s : State}, s.locked = true → s.loop.S < s.loopLength →
    (State.correctForward n s).loop = s.loop.corrected s.loopLength n := by
  induction n with
  | zero =>
    intro s _ hS
    simp [State.correctForward, LoopTracker.corrected, Nat.mod_eq_of_lt hS]
  | succ n ih =>
    intro s hl hS
    obtain ⟨h1, h2⟩ := State.correctForwardOne_loop hl
    have hpos : 0 < s.loopLength := by omega
    have hS' : s.correctForwardOne.loop.S < s.correctForwardOne.loopLength := by
      rw [h1, h2]; exact Nat.mod_lt _ hpos
    rw [State.correctForward, ih (s.correctForwardOne_locked hl) hS', h1, h2]
    simp only [LoopTracker.corrected, LoopTracker.mk.injEq, Nat.mod_add_mod, true_and, and_true,
      show s.loop.S + 1 + n = s.loop.S + (n + 1) by omega]
    refine ⟨by omega, ?_⟩
    by_cases hb : n + 1 ≤ s.loop.backlog
    · rw [if_pos (by omega), if_pos (by omega), if_pos hb]
    · rw [if_neg hb]
      by_cases hb' : n ≤ s.loop.backlog - 1
      · have h0 : n = 0 := by omega
        subst h0
        rw [if_pos hb', if_neg (by omega)]
      · rw [if_neg hb']

/-- R5: a correction inside the backlog moves the loop alone. -/
theorem State.correctForward_backlog (n : Nat) : ∀ {s : State}, n ≤ s.loop.backlog →
    State.correctForward n s = { s with loop := (State.correctForward n s).loop } := by
  induction n with
  | zero => exact fun _ => rfl
  | succ n ih =>
    intro s h
    have hb : s.loop.backlog ≠ 0 := by omega
    have h1 : s.correctForwardOne = s.stepForward := if_neg hb
    have h2 : s.stepForward.loop.backlog = s.loop.backlog - 1 := by
      simp [State.stepForward, hb]
    rw [State.correctForward, h1, ih (by rw [h2]; omega)]
    rfl

/-- The arrival of tray 0 queues no report. -/
theorem State.arrival_rep (s : State) (k : Nat) : (s.arrival k).rep = s.rep := by
  unfold State.arrival
  split
  · split
    · split
      · rfl
      · rfl
      · rfl
      · rw [State.recond_eq]
    · rfl
  · rfl

/-- Settles O14: a marker out of lock acquires it or is discarded, in lock it corrects S and confirms lock. -/
theorem markerAcquiresOrConfirmsLock : Obligations.MarkerAcquiresOrConfirmsLock := by
  unfold Obligations.MarkerAcquiresOrConfirmsLock
  intro s chk lvl hr
  refine ⟨fun hu hT => ?_, fun hu hT hrest => ?_, fun hl hS h2 hslip hb => ?_,
    fun hl hS h2 hslip => ?_⟩
  · have hn : s.locked = false := by simp [State.locked, hu]
    have hc : s.hasConfig = true := by simp [State.hasConfig, hT]
    have hexec := exec_markerPulse hr chk lvl
    rw [if_neg (by rw [hn]; exact Bool.false_ne_true), if_pos hc] at hexec
    generalize hv : ((s.sample chk lvl).modLoop fun c =>
      { c with lock := .locked, S := 0, backlog := 0, frontier := 0, travel := 0, missing := 0 }) = v
    have hacq : (s.sample chk lvl).acquireLock = (v.newlyReached 0).queueReport (.loop .locked .locked) := by
      rw [← hv]; rfl
    rw [hacq] at hexec
    have hvl : v.locked = true := by rw [← hv]; rfl
    have hloop : v.loop = { s.loop with
        lock := .locked, S := 0, backlog := 0, frontier := 0, travel := 0, missing := 0 } := by
      rw [← hv]; rfl
    have hrep : s.trig = .all none → s.trayEventsAt 0 = [.arrival 0] → (v.newlyReached 0).rep = s.rep := by
      intro htrig hev
      have ht0 : v.triggersAt 0 = [] := by
        have : v.trig = .all none := by rw [← hv]; exact htrig
        rw [State.triggersAt, this]; rfl
      have he0 : v.trayEventsAt 0 = [.arrival 0] := by rw [← hv]; exact hev
      rw [State.newlyReached, State.takeTriggersAt_nil ht0,
        State.trayEvents_one ((v.reachAimsAt_trayEventsAt 0).trans he0)]
      refine ((v.reachAimsAt 0).arrival_rep 0).trans ?_
      rw [State.reachAimsAt_eq, ← hv]; rfl
    obtain ⟨u, w, e⟩ := v.newlyReached_planWork 0 hvl
    generalize v.newlyReached 0 = x at hexec hrep e
    have hx : EventKept v x := by rw [e]; exact w.eventKept.trans ⟨rfl, rfl, rfl, rfl, rfl, rfl, rfl, rfl, rfl⟩
    have k : EventKept v ((x.queueReport (.loop .locked .locked)).settle s s.markerArrives false) :=
      (hx.trans (State.queueReport_planWork _ _).eventKept).trans (State.settle_kept _ _ _ _)
    have g := (x.queueReport (.loop .locked .locked)).settle_grows s s.markerArrives false
    refine ⟨_, hexec, k.loop.trans hloop, k.pins.trans (by rw [← hv]; rfl), k.port.trans (by rw [← hv]; rfl),
      k.committed.trans (by rw [← hv]; rfl), fun htrig hev hroom => ?_⟩
    obtain ⟨bytes, hbytes⟩ := g.fifo
    rw [hbytes, State.queueReport_rep, hrep htrig hev, if_pos (by exact hroom)]
    exact List.prefix_append _ _
  · have hn : s.locked = false := by simp [State.locked, hu]
    have hc : s.hasConfig = false := by simp [State.hasConfig, hT]
    have ha : s.markerArrives = false := by simp [State.markerArrives, hn, hc]
    rw [exec_markerPulse hr, if_neg (by rw [hn]; exact Bool.false_ne_true),
      if_neg (by rw [hc]; exact Bool.false_ne_true), ha]
    exact congrArg Host.Outcome.next (State.settle_self (State.plansNothing_of_plans rfl)
      (State.leavesNothing_of_txq rfl) (State.atRest_of_same hrest (fun _ => rfl) rfl rfl))
  · have hll := s.locked_iff.2 hl
    have ha : s.markerArrives = false := by
      simp [State.markerArrives, hll, State.markerForward, h2, State.arrivalAfter]
    have htest : (s.sample chk lvl).testMarker = ((s.sample chk lvl).modLoop fun c =>
        { c with S := 0, backlog := c.backlog + s.loop.S }).confirmLock := by
      have hc : (s.sample chk lvl).correctBackward s.loop.S = (s.sample chk lvl).modLoop fun c =>
          { c with S := 0, backlog := c.backlog + s.loop.S } := if_neg (Nat.not_lt.2 hb)
      rw [State.testMarker, if_pos (by exact h2), if_pos (by exact hslip)]
      dsimp only
      rw [show (s.sample chk lvl).loop.S = s.loop.S from rfl, hc, if_pos (by exact hll)]
    rw [exec_markerPulse hr, if_pos hll, htest, ha]
    generalize hv : ((s.sample chk lvl).modLoop fun c =>
        { c with S := 0, backlog := c.backlog + s.loop.S }) = v
    obtain ⟨h1, h2, h3, h4, h5⟩ := State.confirmLock_settle (s := s) (v := v) (by rw [← hv]; rfl) hl
      (by rw [← hv]; rfl) (by rw [← hv]; rfl) (by rw [← hv]; rfl) (by rw [← hv]; rfl)
    exact ⟨_, rfl, h1.trans (by rw [← hv]; rfl), h2, h3, h4, h5⟩
  · have hll := s.locked_iff.2 hl
    have h2' : ¬ 2 * s.loop.S ≤ s.loopLength := by omega
    have htest : (s.sample chk lvl).testMarker =
        (State.correctForward (s.loopLength - s.loop.S) (s.sample chk lvl)).confirmLock := by
      rw [State.testMarker, if_neg (by exact h2')]
      dsimp only
      rw [if_pos (by exact hslip)]
      rfl
    rw [exec_markerPulse hr, if_pos hll, htest]
    have hloop := State.correctForward_loop (s.loopLength - s.loop.S) (s := s.sample chk lvl) hll hS
    generalize hv : State.correctForward (s.loopLength - s.loop.S) (s.sample chk lvl) = v at hloop
    have hpos : s.loop.S + (s.loopLength - s.loop.S) = s.loopLength := by omega
    have hloop' : { v.loop with lock := .locked, travel := 0, missing := 0 } = { s.loop with
        lock := .locked, S := 0, backlog := s.loop.backlog - (s.loopLength - s.loop.S)
        frontier := if s.loopLength - s.loop.S ≤ s.loop.backlog then s.loop.frontier else 0
        travel := 0, missing := 0 } := by
      rw [hloop]
      change ({ s.loop.corrected s.loopLength (s.loopLength - s.loop.S) with
        lock := .locked, travel := 0, missing := 0 } : LoopTracker) = _
      simp only [LoopTracker.corrected, hpos, Nat.mod_self]
    have hlock : v.loop.lock = s.loop.lock := by rw [hloop]; rfl
    refine ⟨_, rfl, ?_, fun hb => ?_⟩
    · have hc := State.confirmLock_eq (s := v) (by rw [hlock]; exact hl)
      refine ((v.confirmLock.settle_kept s s.markerArrives false).loop).trans ?_
      rw [hc]
      exact hloop'
    · have ha : s.markerArrives = false := by
        simp [State.markerArrives, hll, State.markerForward, h2', hslip, Nat.sub_eq_zero_of_le hb,
          State.arrivalAfter]
      have hback := State.correctForward_backlog _ (s := s.sample chk lvl) hb
      rw [hv] at hback
      obtain ⟨-, h2, h3, h4, h5⟩ := State.confirmLock_settle (s := s) (v := v) hlock hl
        (by rw [hback]; rfl) (by rw [hback]; rfl) (by rw [hback]; rfl) (by rw [hback]; rfl)
      rw [ha]
      exact ⟨h2, h3, h4, h5⟩

end Sys2Proof.Machine
end

section
/-! SUPPORT. Records changed by a frame heard (R18, R67 to R83), and the receiver (R47 to R51). -/

open Sys2Proof Sys2Proof.Machine

namespace Sys2Proof.Machine

/-! ### Records changed in pairs (R18) -/

/-- Another record keeps all but its partner field, which leaves where it named the record changed (R18). -/
theorem State.recond_trayRec_kept {s : State} {k j : Nat} {r q : TrayRec} (hr : s.tray? k = some r)
    (hq : s.tray? j = some q) (hj : j ≠ k) (c : Cond) (seen : Seen) (holder : Option Nat) :
    ∃ q', (s.recond k c seen holder).tray? j = some q' ∧ (q' = q ∨ q' = { q with partner := none }) := by
  by_cases hp : r.partner = some j
  · refine ⟨q.unpair k, ?_, ?_⟩
    · simp [State.recond, hr, hp, State.modTray_trayRec, hj.symm, hq]
    · unfold TrayRec.unpair
      split
      · exact .inr rfl
      · exact .inl rfl
  · exact ⟨q, (State.recond_trayRec_other hr hj hp c seen holder).trans hq, .inl rfl⟩

/-- A record alone is changed in its place. -/
theorem State.recond_of_alone {s : State} {k : Nat} {r : TrayRec} (hr : s.tray? k = some r)
    (hp : r.partner = none) (c : Cond) (seen : Seen) (holder : Option Nat) :
    s.recond k c seen holder = { s with
      trays := s.trays.set k { cond := c, seen := seen, holder := holder, partner := none, plan := none } } := by
  simp only [State.recond, hr, hp, State.modTray, State.setTrays, State.mk.injEq, and_true, true_and]
  refine List.ext_getElem? fun j => ?_
  rw [List.getElem?_modify, List.getElem?_set]
  by_cases hj : k = j
  · subst hj
    have hlt := (List.getElem?_eq_some_iff.1 hr).1
    simp [hlt]
  · simp [hj]

theorem State.recond_two {s : State} {k j : Nat} {r q : TrayRec} (hr : s.tray? k = some r)
    (hq : s.tray? j = some q) (hj : j ≠ k) (c c' : Cond) (seen seen' : Seen) (holder holder' : Option Nat) :
    let t := (s.recond k c seen holder).recond j c' seen' holder'
    t.tray? k = some { cond := c, seen := seen, holder := holder, partner := none, plan := none } ∧
      t.tray? j = some { cond := c', seen := seen', holder := holder', partner := none, plan := none } := by
  obtain ⟨q', hq', -⟩ := State.recond_trayRec_kept hr hq hj c seen holder
  have hk := State.recond_trayRec_self hr c seen holder
  refine ⟨?_, State.recond_trayRec_self hq' c' seen' holder'⟩
  obtain ⟨r', hr', e⟩ := State.recond_trayRec_kept hq' hk hj.symm c' seen' holder'
  rw [hr']
  rcases e with e | e <;> rw [e]

theorem State.pairUp_trayRecs {s : State} {k j : Nat} {a b : TrayRec} (hj : j ≠ k)
    (ha : s.tray? k = some a) (hb : s.tray? j = some b) :
    (s.pairUp k j).tray? k = some { a with partner := some j } ∧
      (s.pairUp k j).tray? j = some { b with partner := some k } := by
  unfold State.pairUp
  constructor
  · rw [State.modTray_trayRec, if_neg hj, State.modTray_trayRec, if_pos rfl, ha]; rfl
  · rw [State.modTray_trayRec, if_pos rfl, State.modTray_trayRec, if_neg hj.symm, hb]; rfl

theorem State.pairUp_eq (s : State) (k j : Nat) : s.pairUp k j = { s with trays := (s.pairUp k j).trays } := rfl

/-- A change of the records leaves a state at rest at rest. -/
theorem State.setTrays_line_atRest {s : State} (h : s.atRest = true) (c : LineIf) (v : List TrayRec) :
    ({ s with line := c, trays := v } : State).atRest = true :=
  State.atRest_of_same h (fun _ => rfl) rfl rfl

theorem State.settle_trays {s : State} (h : s.atRest = true) (c : LineIf) (v : List TrayRec) :
    ({ s with line := c, trays := v } : State).settle s false false = { s with line := c, trays := v } :=
  State.settle_self (State.plansNothing_of_plans rfl) (State.leavesNothing_of_txq rfl)
    (State.setTrays_line_atRest h c v)

/-! ### A frame heard -/

theorem exec_heard {c : Instr} {f : FrameData} (h : heardFrame c = some f) (s : State) :
    exec c s = s.hear f := by
  cases c <;> simp only [heardFrame, Option.some.injEq, reduceCtorEq] at h <;> subst h <;> rfl

theorem State.endFrame_good {s : State} (h : s.line.rxFault = false) (f : FrameData) :
    s.endFrame (frameBytes f) .good = { s with line := s.lineAfter f } := by
  rw [State.endFrame_eq, LineIf.lastStopLow_unmarked _ _ h (by decide), State.lineAfter_eq]
  rfl

/-- A frame heard by a receiver without a mark is applied to a map in use (R52). -/
theorem exec_heard_applied {c : Instr} {f : FrameData} {s : State} (h : heardFrame c = some f)
    (hr : s.pins.rstLow = false) (hh : s.hears = true) (hf : s.line.rxFault = false)
    (hj : s.fieldReject f = none) :
    exec c s = .next ((({ s with line := s.lineAfter f } : State).applyFrame f).settle s false false) := by
  rw [exec_heard h]
  unfold State.hear
  refine (State.unlessHeld_of_rstHigh hr _).trans ?_
  dsimp only
  rw [if_pos hh, if_neg (by rw [hf]; exact Bool.false_ne_true), State.endFrame_good hf, State.receiveFrame,
    show ({ s with line := s.lineAfter f } : State).fieldReject f = none from hj]

theorem exec_heard_marked {c : Instr} {f : FrameData} {s : State} (h : heardFrame c = some f)
    (hr : s.pins.rstLow = false) (hh : s.hears = true) (hf : s.line.rxFault = true) :
    exec c s = .next (((s.endFrame (frameBytes f) .good).rejectFrame .crc f.kind.code).settle s false false) := by
  rw [exec_heard h]
  unfold State.hear
  refine (State.unlessHeld_of_rstHigh hr _).trans ?_
  dsimp only
  rw [if_pos hh, if_pos hf]

theorem exec_heard_deaf {c : Instr} {f : FrameData} {s : State} (h : heardFrame c = some f)
    (hr : s.pins.rstLow = false) (hh : s.hears = false) : exec c s = .next s := by
  rw [exec_heard h]
  unfold State.hear
  refine (State.unlessHeld_of_rstHigh hr _).trans ?_
  rw [if_neg (by rw [hh]; exact Bool.false_ne_true)]

theorem State.applyFrame_claim {s : State} (h : s.mapInUse = true) {f : FrameData} {l : Lane}
    (hk : f.kind = .claim l) : s.applyFrame f = s.applyClaim f := by
  simp only [State.applyFrame, h, hk, if_true]

theorem State.applyFrame_release {s : State} (h : s.mapInUse = true) {f : FrameData}
    (hk : f.kind = .release) :
    s.applyFrame f = (s.namedTrays f.tray f.span).foldl (fun s k => s.releaseRecord f k) s := by
  simp only [State.applyFrame, h, hk, if_true]

theorem State.applyFrame_loaded {s : State} (h : s.mapInUse = true) {f : FrameData} {c : Byte} {d : Bool}
    (hk : f.kind = .loaded c d) : s.applyFrame f = s.applyTaken .loadedAhead f := by
  simp only [State.applyFrame, h, hk, if_true]

theorem State.applyFrame_occupied {s : State} (h : s.mapInUse = true) {f : FrameData}
    (hk : f.kind = .occupied) : s.applyFrame f = s.applyTaken .stray f := by
  simp only [State.applyFrame, h, hk, if_true]

theorem State.applyFrame_defect {s : State} (h : s.mapInUse = true) {f : FrameData}
    (hk : f.kind = .defect) :
    s.applyFrame f = (s.namedTrays f.tray f.span).foldl State.defectRecord s := by
  simp only [State.applyFrame, h, hk, if_true]

theorem State.heldCond_eq (s : State) (x : Nat) :
    s.heldCond x = if s.zoneOffset x ≤ s.zoneOffset s.cfgX then Cond.heldAhead else Cond.heldBehind := by
  unfold State.heldCond State.isAhead
  simp only [decide_eq_true_iff]

/-! ### CLAIM heard (R70, R72, R73) -/

theorem State.holdRecord_of_claimable {s : State} {f : FrameData} {k : Nat} {r : TrayRec}
    (hr : s.tray? k = some r) (hc : s.claimable r = true) :
    s.holdRecord f k = s.recond k (s.heldCond f.location) r.seen (some f.station) := by
  simp only [State.holdRecord, hr, hc, if_true]

theorem State.holdRecord_of_not_claimable {s : State} {f : FrameData} {k : Nat} {r : TrayRec}
    (hr : s.tray? k = some r) (hc : s.claimable r = false) : s.holdRecord f k = s := by
  simp only [State.holdRecord, hr, hc, Bool.false_eq_true, if_false]

theorem State.claimable_of_opened (s : State) {r : TrayRec} (h : r.cond = .opened) : s.claimable r = true := by
  simp [State.claimable, h]

theorem State.claimable_of_neither (s : State) {r : TrayRec} (h : r.cond ≠ .opened) (ho : r.cond ≠ .own) :
    s.claimable r = false := by
  simp [State.claimable, h, ho]

theorem State.refusesSpan_iff (s : State) (r : TrayRec) :
    s.refusesSpan r = true ↔ r.cond = .heldAhead ∨ r.cond = .heldBehind ∨ r.cond = .loadedAhead ∨
      (r.cond = .own ∧ s.planStateOf? r ≠ some .tentative) := by
  simp [State.refusesSpan, or_assoc]

theorem State.loseRace_none (s : State) : s.loseRace none = s := rfl

theorem State.loseRace_of_not_own {s : State} {r : TrayRec} (h : r.cond ≠ .own) : s.loseRace (some r) = s :=
  if_neg h

section Claim

variable {u : State} {f : FrameData} {r q : TrayRec}

theorem State.applyClaim_opened (hs : f.span = .one) (hr : u.tray? f.tray = some r) (hc : r.cond = .opened) :
    u.applyClaim f = u.recond f.tray (u.heldCond f.location) r.seen (some f.station) := by
  have hcl := u.claimable_of_opened hc
  simp only [State.applyClaim, hs, hr, hcl, if_true]
  rw [State.loseRace_of_not_own (by rw [hc]; decide), State.holdRecord_of_claimable hr hcl]

theorem State.applyClaim_neither (hs : f.span = .one) (hr : u.tray? f.tray = some r) (hc : r.cond ≠ .opened)
    (ho : r.cond ≠ .own) : u.applyClaim f = u := by
  have hcl := u.claimable_of_neither hc ho
  simp only [State.applyClaim, hs, hr, hcl, Bool.false_eq_true, if_false]

theorem State.heldCond_congr {v : State} (h : v.table = u.table) (x : Nat) : v.heldCond x = u.heldCond x := by
  unfold State.heldCond State.isAhead State.zoneOffset State.fd State.loopLength State.cfgT State.cfgP
    State.cfgX State.cfgZ0 State.cw
  rw [h]

/-- A record taken leaves another that may be taken so, with its seen state. -/
theorem State.holdRecord_after {k j : Nat} (hr : u.tray? k = some r) (hq : u.tray? j = some q) (hj : j ≠ k)
    (hc : q.cond = .opened) (c : Cond) (seen : Seen) (holder : Option Nat) :
    (u.recond k c seen holder).holdRecord f j =
      (u.recond k c seen holder).recond j (u.heldCond f.location) q.seen (some f.station) := by
  obtain ⟨q', hq', e⟩ := State.recond_trayRec_kept hr hq hj c seen holder
  have h1 : q'.cond = .opened := by rcases e with e | e <;> rw [e] <;> exact hc
  have h2 : q'.seen = q.seen := by rcases e with e | e <;> rw [e]
  rw [State.holdRecord_of_claimable hq' (State.claimable_of_opened _ h1), h2,
    State.heldCond_congr (u := u) (by rw [State.recond_eq])]

theorem State.applyClaim_two_opened (hs : f.span = .two) (hr : u.tray? f.tray = some r)
    (hq : u.tray? (u.nextTray f.tray) = some q) (hj : u.nextTray f.tray ≠ f.tray) (hc : r.cond = .opened)
    (hcq : q.cond = .opened) :
    u.applyClaim f = ((u.recond f.tray (u.heldCond f.location) r.seen (some f.station)).recond
      (u.nextTray f.tray) (u.heldCond f.location) q.seen (some f.station)).pairUp f.tray (u.nextTray f.tray) := by
  have h1 := u.claimable_of_opened hc
  have h2 := u.claimable_of_opened hcq
  have hnr : u.refusesSpan r = false := by simp [State.refusesSpan, hc]
  have hnq : u.refusesSpan q = false := by simp [State.refusesSpan, hcq]
  simp only [State.applyClaim, hs, hr, hq, hnr, hnq, h1, h2, Bool.or_self, Bool.false_eq_true, if_false,
    Bool.and_self, if_true]
  rw [State.loseRace_of_not_own (r := r) (by rw [hc]; decide),
    State.loseRace_of_not_own (r := q) (by rw [hcq]; decide),
    State.holdRecord_of_claimable hr h1, State.holdRecord_after hr hq hj hcq]

theorem State.applyClaim_two_refused (hs : f.span = .two) (hr : u.tray? f.tray = some r)
    (hq : u.tray? (u.nextTray f.tray) = some q)
    (h : u.refusesSpan r = true ∨ u.refusesSpan q = true) : u.applyClaim f = u := by
  have h' : (u.refusesSpan r || u.refusesSpan q) = true := by simpa using h
  simp only [State.applyClaim, hs, hr, hq, h', if_true]

/-- A record that a span CLAIM passes by: no CLAIM takes it, and it refuses none (R73). -/
def TrayRec.aside (v : TrayRec) : Prop :=
  v.cond = .learning ∨ v.cond = .stray ∨ v.cond = .passed ∨ v.cond = .defective

theorem TrayRec.aside.not_claimable {v : TrayRec} (h : v.aside) (u : State) : u.claimable v = false := by
  rcases h with h | h | h | h <;> exact u.claimable_of_neither (by rw [h]; decide) (by rw [h]; decide)

theorem TrayRec.aside.not_refusesSpan {v : TrayRec} (h : v.aside) (u : State) : u.refusesSpan v = false := by
  rcases h with h | h | h | h <;> simp [State.refusesSpan, h]

theorem State.applyClaim_two_first (hs : f.span = .two) (hr : u.tray? f.tray = some r)
    (hq : u.tray? (u.nextTray f.tray) = some q) (hj : u.nextTray f.tray ≠ f.tray) (hc : r.cond = .opened)
    (hp : r.partner = none) (ha : q.aside) :
    u.applyClaim f = u.recond f.tray (u.heldCond f.location) r.seen (some f.station) := by
  have h1 := u.claimable_of_opened hc
  have hnr : u.refusesSpan r = false := by simp [State.refusesSpan, hc]
  have hpn : r.partner ≠ some (u.nextTray f.tray) := by rw [hp]; exact nofun
  simp only [State.applyClaim, hs, hr, hq, hnr, h1, ha.not_refusesSpan u, ha.not_claimable u, Bool.or_self,
    Bool.false_eq_true, if_false, Bool.and_false, if_true]
  rw [State.loseRace_of_not_own (r := r) (by rw [hc]; decide),
    State.loseRace_none, State.holdRecord_of_claimable hr h1]
  exact State.holdRecord_of_not_claimable ((State.recond_trayRec_other hr hj hpn ..).trans hq)
    (ha.not_claimable _)

theorem State.applyClaim_two_second (hs : f.span = .two) (hr : u.tray? f.tray = some r)
    (hq : u.tray? (u.nextTray f.tray) = some q) (hc : q.cond = .opened) (ha : r.aside) :
    u.applyClaim f = u.recond (u.nextTray f.tray) (u.heldCond f.location) q.seen (some f.station) := by
  have h1 := u.claimable_of_opened hc
  have hnq : u.refusesSpan q = false := by simp [State.refusesSpan, hc]
  simp only [State.applyClaim, hs, hr, hq, hnq, h1, ha.not_refusesSpan u, ha.not_claimable u, Bool.or_self,
    Bool.false_eq_true, if_false, Bool.false_and, if_true]
  rw [State.holdRecord_of_not_claimable hr (ha.not_claimable u), State.holdRecord_of_claimable hq h1,
    State.loseRace_none,
    State.loseRace_of_not_own (r := q) (by rw [hc]; decide)]

end Claim

/-- Settles O30: a CLAIM heard for one tray or two, by the records' conditions. -/
theorem heardClaimHoldsOpenTrays : Obligations.HeardClaimHoldsOpenTrays := by
  unfold Obligations.HeardClaimHoldsOpenTrays
  intro s st x k lane r hr hh hf hm hk f hj held
  have hexec : ∀ sp, ∃ u : State, u.trays = s.trays ∧ u.nextTray k = s.nextTray k ∧
      u.heldCond (f sp).location = held ∧ (∀ v, u.planStateOf? v = s.planStateOf? v) ∧
      ∀ v, u.applyClaim (f sp) = u.setTrays v → s.atRest = true →
        exec (.claimHeard st x k sp lane) s = .next { s with line := s.lineAfter (f sp), trays := v } := by
    refine fun sp => ⟨{ s with line := s.lineAfter (f sp) }, rfl, rfl, State.heldCond_eq _ _, fun _ => rfl,
      fun v e hrest => ?_⟩
    rw [exec_heard_applied (f := f sp) rfl hr hh hf hj,
      State.applyFrame_claim (s := { s with line := s.lineAfter (f sp) }) hm (f := f sp) rfl, e]
    exact congrArg Host.Outcome.next (State.settle_trays hrest _ v)
  have htray : ∀ {u : State} {j v}, u.trays = s.trays → s.tray? j = some v → u.tray? j = some v :=
    fun h e => by rw [State.tray?, h]; exact e
  refine ⟨fun hc hrest => ?_, fun hc ho hrest => ?_, fun q hq hne hc hcq hrest => ?_, fun q hq hne hrest => ?_⟩
  · obtain ⟨u, htr, -, hheld, -, hex⟩ := hexec .one
    have huk := htray htr hk
    have happ := State.applyClaim_opened (f := f .one) rfl huk hc
    rw [State.recond_eq, hheld] at happ
    refine ⟨_, hex _ happ hrest, State.recond_trayRec_self huk .., fun j hj' hp => ?_⟩
    rw [← htr]
    exact State.recond_trayRec_other huk hj' hp ..
  · obtain ⟨u, htr, -, -, -, hex⟩ := hexec .one
    exact hex s.trays ((State.applyClaim_neither (f := f .one) rfl (htray htr hk) hc ho).trans
      (by rw [← htr]; rfl)) hrest
  · obtain ⟨u, htr, hnx, hheld, -, hex⟩ := hexec .two
    have huk := htray htr hk
    have huq := htray htr hq
    rw [← hnx] at huq hne ⊢
    have happ := State.applyClaim_two_opened (f := f .two) rfl huk huq hne hc hcq
    rw [State.pairUp_eq, State.recond_eq, State.recond_eq u, hheld] at happ
    obtain ⟨h1, h2⟩ := State.recond_two huk huq hne held held r.seen q.seen (some st) (some st)
    have h3 := State.pairUp_trayRecs hne h1 h2
    rw [State.recond_eq, State.recond_eq u] at h3
    exact ⟨_, hex _ happ hrest, h3⟩
  · obtain ⟨u, htr, hnx, hheld, hpl, hex⟩ := hexec .two
    have huk := htray htr hk
    have huq := htray htr hq
    rw [← hnx] at huq hne ⊢
    refine ⟨fun hx => ?_, fun hc hp ha => ?_, fun hc hp ha => ?_⟩
    · refine hex s.trays ((State.applyClaim_two_refused (f := f .two) rfl huk huq ?_).trans
        (by rw [← htr]; rfl)) hrest
      rw [State.refusesSpan_iff, State.refusesSpan_iff, hpl, hpl]
      exact hx
    · have happ := State.applyClaim_two_first (f := f .two) rfl huk huq hne hc hp ha
      rw [State.recond_of_alone huk hp, hheld, htr] at happ
      exact hex _ happ hrest
    · have happ := State.applyClaim_two_second (f := f .two) rfl huk huq hc ha
      rw [State.recond_of_alone huq hp, hheld, htr] at happ
      exact hex _ happ hrest

end Sys2Proof.Machine
end

section
/-! SUPPORT. RELEASE, LOADED, OCCUPIED and DEFECT heard on records that are not this station's (R76 to R82). -/

open Sys2Proof Sys2Proof.Machine

namespace Sys2Proof.Machine

/-- The state at the end found of a frame heard (R47, R49). -/
def State.frameEnded (s : State) (f : FrameData) : State := { s with line := s.lineAfter f }

theorem State.frameEnded_mapInUse (s : State) (h : s.mapInUse = true) (f : FrameData) :
    (s.frameEnded f).mapInUse = true := h

/-- A frame heard that moves the records alone, on a state at rest. -/
theorem exec_heard_trays {c : Instr} {f : FrameData} {s : State} {v : List TrayRec}
    (h : heardFrame c = some f) (hr : s.pins.rstLow = false) (hh : s.hears = true)
    (hf : s.line.rxFault = false) (hj : s.fieldReject f = none) (hrest : s.atRest = true)
    (e : (s.frameEnded f).applyFrame f = (s.frameEnded f).setTrays v) :
    exec c s = .next { s with line := s.lineAfter f, trays := v } := by
  rw [exec_heard_applied h hr hh hf hj]
  change Host.Outcome.next (((s.frameEnded f).applyFrame f).settle s false false) = _
  rw [e]
  exact congrArg Host.Outcome.next (State.settle_trays hrest _ v)

/-! ### RELEASE (R76, R77) -/

theorem State.releaseRecord_of_holder {s : State} {f : FrameData} {k : Nat} {r : TrayRec}
    (hr : s.tray? k = some r) (hc : r.cond = .heldAhead ∨ r.cond = .heldBehind)
    (hh : r.holder = some f.station) : s.releaseRecord f k = s.recond k .opened r.seen none := by
  simp only [State.releaseRecord, hr, hc, hh, and_self, if_true]

theorem State.releaseRecord_of_other {s : State} {f : FrameData} {k : Nat} {r : TrayRec}
    (hr : s.tray? k = some r)
    (h : (r.cond ≠ .heldAhead ∧ r.cond ≠ .heldBehind) ∨ r.holder ≠ some f.station) :
    s.releaseRecord f k = s := by
  have hn : ¬ ((r.cond = .heldAhead ∨ r.cond = .heldBehind) ∧ r.holder = some f.station) := by tauto
  simp only [State.releaseRecord, hr, if_neg hn]

/-- Settles O32: a RELEASE heard changes the records its sender holds. -/
theorem heardReleaseOpensItsOwnHolding : Obligations.HeardReleaseOpensItsOwnHolding := by
  unfold Obligations.HeardReleaseOpensItsOwnHolding
  intro s st x k r hr hh hf hm hrest hk f hj
  have happ : ∀ sp, (s.frameEnded (f sp)).applyFrame (f sp) =
      ((s.frameEnded (f sp)).namedTrays k sp).foldl (fun s k => s.releaseRecord (f sp) k)
        (s.frameEnded (f sp)) := fun sp =>
        State.applyFrame_release (s.frameEnded_mapInUse hm (f sp)) rfl
  have hexec : ∀ sp v, _ → exec (.releaseHeard st x k sp) s = _ := fun sp v =>
    exec_heard_trays (f := f sp) (v := v) rfl hr hh hf hj hrest
  have hk1 : ∀ sp, (s.frameEnded (f sp)).tray? k = some r := fun _ => hk
  refine ⟨fun hc ho => ?_, fun h => ?_, fun q hq hne ho hoq hc hcq => ?_⟩
  · have e := (happ .one).trans (State.releaseRecord_of_holder (f := f .one) (hk1 .one) hc ho)
    rw [State.recond_eq] at e
    exact ⟨_, hexec .one _ e, State.recond_trayRec_self (hk1 .one) .., fun j hj' hp =>
      State.recond_trayRec_other (hk1 .one) hj' hp ..⟩
  · exact hexec .one s.trays ((happ .one).trans (State.releaseRecord_of_other (f := f .one) (hk1 .one) h))
  · have hq2 : (s.frameEnded (f .two)).tray? (s.nextTray k) = some q := hq
    obtain ⟨q', hq', e'⟩ := State.recond_trayRec_kept (hk1 .two) hq2 hne .opened r.seen none
    have h1 : (q'.cond = .heldAhead ∨ q'.cond = .heldBehind) ∧ q'.holder = some st ∧ q'.seen = q.seen := by
      rcases e' with e' | e' <;> rw [e'] <;> exact ⟨hcq, hoq, rfl⟩
    have e := (happ .two).trans (congrArg (fun u => State.releaseRecord u (f .two) (s.nextTray k))
      (State.releaseRecord_of_holder (f := f .two) (hk1 .two) hc ho))
    rw [State.releaseRecord_of_holder hq' h1.1 h1.2.1, h1.2.2, State.recond_eq,
      State.recond_eq (s.frameEnded (f .two))] at e
    obtain ⟨h2, h3⟩ := State.recond_two (hk1 .two) hq2 hne .opened .opened r.seen q.seen none none
    rw [State.recond_eq, State.recond_eq (s.frameEnded (f .two))] at h2 h3
    exact ⟨_, hexec .two _ e, h2, h3⟩

/-! ### LOADED and OCCUPIED (R78, R79, R81) -/

theorem State.takenRecord_of_free {s : State} {c : Cond} {f : FrameData} {k : Nat} {r : TrayRec}
    (hr : s.tray? k = some r)
    (hc : r.cond = .opened ∨ r.cond = .heldAhead ∨ r.cond = .heldBehind) :
    s.takenRecord c f k = s.recond k c r.seen (some f.station) := by
  rcases hc with hc | hc | hc <;> simp only [State.takenRecord, hr, hc]

theorem State.takenRecord_of_kept {s : State} {c : Cond} {f : FrameData} {k : Nat} {r : TrayRec}
    (hr : s.tray? k = some r)
    (hc : r.cond ≠ .opened ∧ r.cond ≠ .heldAhead ∧ r.cond ≠ .heldBehind ∧ r.cond ≠ .own) :
    s.takenRecord c f k = s := by
  obtain ⟨h1, h2, h3, h4⟩ := hc
  simp only [State.takenRecord, hr]
  cases h : r.cond <;> simp_all

theorem State.applyTaken_of_behind {s : State} {f : FrameData}
    (h : s.zoneOffset s.cfgX < s.zoneOffset f.location) (c : Cond) : s.applyTaken c f = s :=
  if_neg (by simp [State.isAhead, h])

theorem State.applyTaken_one {s : State} {f : FrameData} (h : s.zoneOffset f.location ≤ s.zoneOffset s.cfgX)
    (hs : f.span = .one) (c : Cond) : s.applyTaken c f = s.takenRecord c f f.tray := by
  rw [State.applyTaken, if_pos (by simp [State.isAhead, h])]
  simp only [State.pairIf, hs, State.namedTrays, List.foldl_cons, List.foldl_nil]

theorem State.applyTaken_two {s : State} {f : FrameData} (h : s.zoneOffset f.location ≤ s.zoneOffset s.cfgX)
    (hs : f.span = .two) (c : Cond) :
    s.applyTaken c f =
      ((s.takenRecord c f f.tray).takenRecord c f (s.nextTray f.tray)).pairIf c f := by
  rw [State.applyTaken, if_pos (by simp [State.isAhead, h])]
  simp only [hs, State.namedTrays, List.foldl_cons, List.foldl_nil]

theorem State.holdsAs_of {s : State} {c : Cond} {h k : Nat} {r : TrayRec} (hr : s.tray? k = some r)
    (hc : r.cond = c) (hh : r.holder = some h) : s.holdsAs c h k = true := by
  simp [State.holdsAs, hr, hc, hh]

theorem State.applyTaken_two_opened {s : State} {f : FrameData} {r q : TrayRec}
    (h : s.zoneOffset f.location ≤ s.zoneOffset s.cfgX) (hs : f.span = .two)
    (hr : s.tray? f.tray = some r) (hq : s.tray? (s.nextTray f.tray) = some q)
    (hj : s.nextTray f.tray ≠ f.tray) (hc : r.cond = .opened) (hcq : q.cond = .opened) (c : Cond) :
    s.applyTaken c f = ((s.recond f.tray c r.seen (some f.station)).recond (s.nextTray f.tray) c q.seen
      (some f.station)).pairUp f.tray (s.nextTray f.tray) := by
  obtain ⟨q', hq', e⟩ := State.recond_trayRec_kept hr hq hj c r.seen (some f.station)
  have h1 : q'.cond = .opened ∧ q'.seen = q.seen := by rcases e with e | e <;> rw [e] <;> exact ⟨hcq, rfl⟩
  obtain ⟨h2, h3⟩ := State.recond_two hr hq hj c c r.seen q.seen (some f.station) (some f.station)
  rw [State.applyTaken_two h hs, State.takenRecord_of_free hr (.inl hc),
    State.takenRecord_of_free hq' (.inl h1.1), h1.2]
  have hn : ((s.recond f.tray c r.seen (some f.station)).recond (s.nextTray f.tray) c q.seen
      (some f.station)).nextTray f.tray = s.nextTray f.tray := by
    rw [State.recond_eq, State.recond_eq s]; rfl
  generalize (s.recond f.tray c r.seen (some f.station)).recond (s.nextTray f.tray) c q.seen
    (some f.station) = u at h2 h3 hn ⊢
  simp only [State.pairIf, hs, hn, State.holdsAs_of h2 rfl rfl, State.holdsAs_of h3 rfl rfl, Bool.and_self,
    if_true]

/-- Settles O33: a LOADED or OCCUPIED heard by standing and condition. -/
theorem heardTakenTrayFollowsSender : Obligations.HeardTakenTrayFollowsSender := by
  unfold Obligations.HeardTakenTrayFollowsSender
  intro s c kind cond st x k r hr hh hf hm hrest hk f hj hkind
  have happ : ∀ sp, heardFrame (c sp) = some (f sp) ∧
      (s.frameEnded (f sp)).applyFrame (f sp) = (s.frameEnded (f sp)).applyTaken cond (f sp) := by
    intro sp
    rcases hkind with ⟨⟨chute, double, rfl, hk⟩, hc⟩ | ⟨rfl, hk, hc⟩
    · subst hc
      exact ⟨by simp only [heardFrame, f, hk], State.applyFrame_loaded (s.frameEnded_mapInUse hm (f sp)) hk⟩
    · subst hc
      exact ⟨by simp only [heardFrame, f, hk], State.applyFrame_occupied (s.frameEnded_mapInUse hm (f sp)) hk⟩
  have hexec : ∀ sp v, (s.frameEnded (f sp)).applyTaken cond (f sp) = (s.frameEnded (f sp)).setTrays v →
      exec (c sp) s = .next { s with line := s.lineAfter (f sp), trays := v } := fun sp v e =>
    exec_heard_trays (happ sp).1 hr hh hf hj hrest ((happ sp).2.trans e)
  have hk1 : ∀ sp, (s.frameEnded (f sp)).tray? k = some r := fun _ => hk
  refine ⟨fun ha hc => ?_, fun q ha hq hne hc hcq => ?_, fun hb sp => ?_, fun hc => ?_⟩
  · have e := (State.applyTaken_one (s := s.frameEnded (f .one)) (f := f .one) ha rfl cond).trans
      (State.takenRecord_of_free (hk1 .one) hc)
    rw [State.recond_eq] at e
    exact ⟨_, hexec .one _ e, State.recond_trayRec_self (hk1 .one) .., fun j hj' hp =>
      State.recond_trayRec_other (hk1 .one) hj' hp ..⟩
  · have hq2 : (s.frameEnded (f .two)).tray? (s.nextTray k) = some q := hq
    have e := State.applyTaken_two_opened (s := s.frameEnded (f .two)) (f := f .two) ha rfl (hk1 .two) hq2 hne hc
      hcq cond
    obtain ⟨h1, h2⟩ := State.recond_two (hk1 .two) hq2 hne cond cond r.seen q.seen (some st) (some st)
    have h3 := State.pairUp_trayRecs hne h1 h2
    rw [State.pairUp_eq, State.recond_eq, State.recond_eq (s.frameEnded (f .two))] at e
    rw [State.recond_eq, State.recond_eq (s.frameEnded (f .two))] at h3
    exact ⟨_, hexec .two _ e, h3⟩
  · exact hexec sp s.trays (State.applyTaken_of_behind (s := s.frameEnded (f sp)) (f := f sp) hb cond)
  · by_cases ha : s.zoneOffset x ≤ s.zoneOffset s.cfgX
    · exact hexec .one s.trays ((State.applyTaken_one (s := s.frameEnded (f .one)) (f := f .one) ha rfl cond).trans
        (State.takenRecord_of_kept (hk1 .one) hc))
    · exact hexec .one s.trays (State.applyTaken_of_behind (s := s.frameEnded (f .one)) (f := f .one)
        (Nat.lt_of_not_le ha) cond)

/-! ### DEFECT (R82) -/

theorem State.defectRecord_of_other {s : State} {k : Nat} {r : TrayRec} (hr : s.tray? k = some r)
    (ho : r.cond ≠ .own) (hd : r.cond ≠ .defective) :
    s.defectRecord k = (s.recond k .defective r.seen none).queueReport (.defect k .heard) := by
  simp only [State.defectRecord, hr, if_neg ho, if_neg hd]

theorem State.defectRecord_of_defective {s : State} {k : Nat} {r : TrayRec} (hr : s.tray? k = some r)
    (hd : r.cond = .defective) : s.defectRecord k = s := by
  simp only [State.defectRecord, hr, hd, if_true]

/-- R82: the record is marked and reported; its partner's pair is taken apart. -/
theorem State.defectRecord_marks {u : State} {k : Nat} {r : TrayRec} (hr : u.tray? k = some r)
    (ho : r.cond ≠ .own) (hd : r.cond ≠ .defective) :
    ((u.defectRecord k).tray? k =
        some { cond := .defective, seen := r.seen, holder := none, partner := none, plan := none } ∧
      ∀ j q, j ≠ k → u.tray? j = some q → ∃ q', (u.defectRecord k).tray? j = some q' ∧
        (q' = q ∨ q' = { q with partner := none })) ∧
    (∀ j, j ≠ k → r.partner ≠ some j → (u.defectRecord k).tray? j = u.tray? j) ∧
    u.defectRecord k = { u with
      trays := (u.defectRecord k).trays, rep := (u.queueReport (.defect k .heard)).rep } := by
  rw [State.defectRecord_of_other hr ho hd]
  refine ⟨⟨State.recond_trayRec_self hr .., fun j q hj hq => State.recond_trayRec_kept hr hq hj ..⟩,
    fun j hj hp => State.recond_trayRec_other hr hj hp .., ?_⟩
  rw [State.recond_eq]
  rfl

theorem exec_defectHeard {s : State} {st x k : Nat} {sp : Span} (hr : s.pins.rstLow = false)
    (hh : s.hears = true) (hf : s.line.rxFault = false) (hm : s.mapInUse = true)
    (hj : s.fieldReject { kind := .defect, station := st, location := x, tray := k, span := sp } = none) :
    exec (.defectHeard st x k sp) s = .next (((s.namedTrays k sp).foldl State.defectRecord
      (s.frameEnded { kind := .defect, station := st, location := x, tray := k, span := sp })).settle s
        false false) := by
  rw [exec_heard_applied (f := { kind := .defect, station := st, location := x, tray := k, span := sp }) rfl hr hh hf hj]
  exact congrArg (fun u => Host.Outcome.next (State.settle u s false false))
    (State.applyFrame_defect (s.frameEnded_mapInUse hm _) rfl)

/-- Settles O34: a DEFECT heard marks and reports each record it names, the leading one first. -/
theorem heardDefectMarksTray : Obligations.HeardDefectMarksTray := by
  unfold Obligations.HeardDefectMarksTray
  intro s st x k r hr hh hf hm hk f hj
  refine ⟨fun ho hd => ?_, fun q hq hne ho hd hoq hdq => ?_, fun hd hrest => ?_⟩
  · have hk1 : (s.frameEnded f).tray? k = some r := hk
    obtain ⟨⟨h1, -⟩, h2, h3⟩ := State.defectRecord_marks hk1 ho hd
    have h : exec (.defectHeard st x k .one) s = .next (((s.frameEnded f).defectRecord k).settle s false false) :=
      exec_defectHeard hr hh hf hm hj
    generalize (s.frameEnded f).defectRecord k = u at h h1 h2 h3
    have e := State.settle_quiet (before := s) (u := u) (by rw [h3]; rfl) (by rw [h3]; rfl)
    exact ⟨_, h, (e.tray k).trans h1, fun j hj' hp => (e.tray j).trans (h2 j hj' hp), e.rep.trans (by rw [h3]; rfl),
      e.plans.trans (by rw [h3]; rfl), e.txq.trans (by rw [h3]; rfl), e.loop.trans (by rw [h3]; rfl),
      e.doubt.trans (by rw [h3]; rfl)⟩
  · obtain ⟨g, hg⟩ : ∃ g : FrameData, g = { kind := .defect, station := st, location := x, tray := k, span := .two } :=
      ⟨_, rfl⟩
    have hk1 : (s.frameEnded g).tray? k = some r := hk
    have hq1 : (s.frameEnded g).tray? (s.nextTray k) = some q := hq
    have h : exec (.defectHeard st x k .two) s = .next
        ((((s.frameEnded g).defectRecord k).defectRecord (s.nextTray k)).settle s false false) := by
      rw [hg]
      exact exec_defectHeard hr hh hf hm hj
    obtain ⟨⟨h1, h2⟩, -, h3⟩ := State.defectRecord_marks hk1 ho hd
    obtain ⟨q', hq', eq'⟩ := h2 _ q hne hq1
    generalize (s.frameEnded g).defectRecord k = u at h h1 h3 hq'
    have hc : q'.cond = q.cond ∧ q'.seen = q.seen := by rcases eq' with e | e <;> rw [e] <;> exact ⟨rfl, rfl⟩
    obtain ⟨⟨h4, h5⟩, -, h6⟩ := State.defectRecord_marks hq' (by rw [hc.1]; exact hoq) (by rw [hc.1]; exact hdq)
    obtain ⟨r', hr', er⟩ := h5 k _ hne.symm h1
    generalize u.defectRecord (s.nextTray k) = v at h h4 h6 hr'
    have e := State.settle_quiet (before := s) (u := v) (by rw [h6, h3]; rfl) (by rw [h6, h3]; rfl)
    refine ⟨_, h, (e.tray k).trans (hr'.trans ?_), (e.tray _).trans (h4.trans (by rw [hc.2])),
      e.rep.trans ?_, e.plans.trans (by rw [h6, h3]; rfl), e.txq.trans (by rw [h6, h3]; rfl)⟩
    · rcases er with er | er <;> rw [er]
    · rw [h6]; exact State.queueReport_rep_congr (by rw [h3]; rfl) _
  · have hk1 : (s.frameEnded f).tray? k = some r := hk
    have h : exec (.defectHeard st x k .one) s = .next (((s.frameEnded f).defectRecord k).settle s false false) :=
      exec_defectHeard hr hh hf hm hj
    rw [h, State.defectRecord_of_defective hk1 hd]
    exact congrArg Host.Outcome.next (State.settle_trays hrest _ s.trays)

end Sys2Proof.Machine
end

section
/-! SUPPORT. The receiver's checks, and a receiver that takes nothing (R47 to R51). -/

open Sys2Proof Sys2Proof.Machine

namespace Sys2Proof.Machine

/-- R51: what a rejected frame leaves, field by field. -/
theorem State.rejectFrame_eq (s : State) (why : FrameReject) (code : Nat) :
    s.rejectFrame why code = { s with
      rep := (s.queueReport (.frameRejected why code)).rep
      doubt := if (why = .crc ∨ why = .tray ∨ why = .location) ∧ s.mapInUse = true then
        min s.cfgDoubtDistance s.loopLength else s.doubt } := by
  have hw : ∀ b : Bool, (if b = true then (s.queueReport (.frameRejected why code)).setDoubtWindow
      else s.queueReport (.frameRejected why code)) = { s with
        rep := (s.queueReport (.frameRejected why code)).rep
        doubt := if b = true then min s.cfgDoubtDistance s.loopLength else s.doubt } := by
    intro b; cases b <;> rfl
  cases why
  · simp only [reduceCtorEq, or_self, false_and, if_false]; rfl
  · simp only [true_or, true_and]; exact hw s.mapInUse
  · simp only [reduceCtorEq, true_or, or_true, true_and]; exact hw s.mapInUse
  · simp only [reduceCtorEq, or_true, true_and]; exact hw s.mapInUse
  · simp only [reduceCtorEq, or_self, false_and, if_false]; rfl

theorem parseFrame_error {bytes : List Byte} {fault : Bool} {why : FrameReject}
    (h : parseFrame bytes fault = .error why) : why = .length ∨ why = .crc := by
  unfold parseFrame at h
  split at h
  · cases h; exact .inl rfl
  · split at h
    · cases h; exact .inl rfl
    · split at h
      · cases h; exact .inr rfl
      · cases h

theorem State.fieldReject_some {s : State} {f : FrameData} {why : FrameReject} (h : s.fieldReject f = some why) :
    why = .tray ∨ why = .location ∨ why = .twin := by
  unfold State.fieldReject at h
  split at h
  · cases h; exact .inl rfl
  · split at h
    · cases h; exact .inr (.inl rfl)
    · split at h
      · cases h; exact .inr (.inr rfl)
      · cases h

/-- The idle run at the end of a frame whose stop bits the command tells (R47). -/
theorem State.endFrame_run (s : State) (bytes : List Byte) (stops : StopBits) :
    (s.endFrame bytes stops).line.idleRun = if stops = .lastLow then 10
      else if s.line.rxFault = true ∧ bytes.length ≤ s.line.rxBuf.length then 10 else endRun bytes := by
  rw [State.endFrame_eq]
  change runAfterStop bytes (s.line.lastStopLow bytes stops) = _
  have hl : s.line.lastStopLow bytes stops = true ↔
      stops = .lastLow ∨ (s.line.rxFault = true ∧ bytes.length ≤ s.line.rxBuf.length) := by
    simp only [LineIf.lastStopLow, Bool.or_eq_true, beq_iff_eq, Bool.and_eq_true, decide_eq_true_iff]
  unfold runAfterStop
  simp only [hl]
  split_ifs <;> simp_all

/-- A frame rejected at the end of its bytes, and the end of the event (R51). -/
theorem State.rejectFrame_settle (s : State) (bytes : List Byte) (stops : StopBits) (why : FrameReject)
    (code : Nat) :
    let t := ((s.endFrame bytes stops).rejectFrame why code).settle s false false
    (t.line.rx = .hunting ∧ t.line.rxBuf = [] ∧ t.line.rxFault = false ∧ t.trays = s.trays ∧
      t.plans = s.plans ∧ t.txq = s.txq ∧ t.loop = s.loop) ∧
    t.line.idleRun = (if stops = .lastLow then 10
      else if s.line.rxFault = true ∧ bytes.length ≤ s.line.rxBuf.length then 10 else endRun bytes) ∧
    t.rep = (s.queueReport (.frameRejected why code)).rep ∧
    t.doubt = (if (why = .crc ∨ why = .tray ∨ why = .location) ∧ s.mapInUse = true then
      min s.cfgDoubtDistance s.loopLength else s.doubt) := by
  have hu := (s.endFrame bytes stops).rejectFrame_eq why code
  generalize (s.endFrame bytes stops).rejectFrame why code = u at hu
  have e : EventEnd u (u.settle s false false) := State.settle_quiet (by rw [hu]; rfl) (by rw [hu]; rfl)
  have hline : (u.settle s false false).line = (s.endFrame bytes stops).line := e.line.trans (by rw [hu])
  refine ⟨⟨congrArg LineIf.rx hline, congrArg LineIf.rxBuf hline, congrArg LineIf.rxFault hline,
    e.trays.trans (by rw [hu]; rfl), e.plans.trans (by rw [hu]; rfl), e.txq.trans (by rw [hu]; rfl),
    e.loop.trans (by rw [hu]; rfl)⟩, ?_, e.rep.trans (by rw [hu]; rfl), e.doubt.trans (by rw [hu]; rfl)⟩
  rw [hline]
  exact s.endFrame_run bytes stops

theorem exec_receivedFrameRejected {s : State} (hr : s.pins.rstLow = false) (hh : s.hears = true)
    (bytes : List Byte) (stops : StopBits) (tenth : Bool) :
    exec (.receivedFrameRejected bytes stops tenth) s = .next
      (if tenth then (s.overrun bytes).settle s false false
      else match parseFrame bytes (s.faultMark stops) with
        | .error why => ((s.endFrame bytes stops).rejectFrame why (kindCodeOf bytes)).settle s false false
        | .ok f => ((s.endFrame bytes stops).receiveFrame f).settle s false false) := by
  change execReceivedFrameRejected bytes stops tenth s = _
  unfold execReceivedFrameRejected
  refine (State.unlessHeld_of_rstHigh hr _).trans ?_
  refine congrArg Host.Outcome.next ((if_pos hh).trans ?_)
  cases tenth
  · cases parseFrame bytes (s.faultMark stops) <;> rfl
  · rfl

theorem exec_receivedFrameRejected_deaf {s : State} (hr : s.pins.rstLow = false) (hh : s.hears = false)
    (bytes : List Byte) (stops : StopBits) (tenth : Bool) :
    exec (.receivedFrameRejected bytes stops tenth) s = .next s := by
  change execReceivedFrameRejected bytes stops tenth s = _
  unfold execReceivedFrameRejected
  refine (State.unlessHeld_of_rstHigh hr _).trans ?_
  rw [if_neg (by rw [hh]; exact Bool.false_ne_true)]

theorem exec_receiverEntersHunting {s : State} (hr : s.pins.rstLow = false) :
    exec .receiverEntersHunting s = .next (if s.line.enabled && s.line.rx == .discarding then
      { s with line := { s.line with
          rx := .hunting, rxBuf := [], rxFault := false, idleRun := max s.line.idleRun 10 } }
      else s) := by
  change execReceiverEntersHunting s = _
  unfold execReceiverEntersHunting
  exact State.unlessHeld_of_rstHigh hr _

/-- Settles O35: the buffer by the first check it fails, a frame heard under the mark, and a receiver that takes
nothing. -/
theorem receiverRejectsFrames : Obligations.ReceiverRejectsFrames := by
  unfold Obligations.ReceiverRejectsFrames
  intro s bytes stops hr window mark run runSaid kept
  refine ⟨fun why hh hp => ?_, fun f why hh hp hf => ?_, fun hh => ?_, fun c f hh hx hc => ?_, fun hh => ?_,
    fun he hd => ?_, fun h => ?_⟩
  · have h := exec_receivedFrameRejected hr hh bytes stops false
    rw [if_neg Bool.false_ne_true, show parseFrame bytes (s.faultMark stops) = .error why from hp] at h
    obtain ⟨h1, h2, h3, h4⟩ := s.rejectFrame_settle bytes stops why (kindCodeOf bytes)
    refine ⟨_, h, h1, h2, h3, h4.trans ?_⟩
    rcases parseFrame_error hp with rfl | rfl
    · rw [if_neg (by simp), if_neg (by simp)]
    · simp only [true_or, true_and]; rfl
  · have h := exec_receivedFrameRejected hr hh bytes stops false
    rw [if_neg Bool.false_ne_true, show parseFrame bytes (s.faultMark stops) = .ok f from hp] at h
    have hrec : (s.endFrame bytes stops).receiveFrame f =
        (s.endFrame bytes stops).rejectFrame why f.kind.code := by
      rw [State.receiveFrame, show (s.endFrame bytes stops).fieldReject f = some why from hf]
    simp only [hrec] at h
    obtain ⟨h1, h2, h3, h4⟩ := s.rejectFrame_settle bytes stops why f.kind.code
    refine ⟨_, h, h1, h2, h3, h4.trans ?_⟩
    rcases State.fieldReject_some hf with rfl | rfl | rfl
    · simp only [true_or, or_true, true_and]; rfl
    · simp only [or_true, true_and]; rfl
    · rw [if_neg (by simp), if_neg (by simp)]
  · have h := exec_receivedFrameRejected hr hh bytes stops true
    rw [if_pos rfl] at h
    have hu : s.overrun bytes = _ := State.rejectFrame_eq _ .length (kindCodeOf bytes)
    rw [if_neg (by simp)] at hu
    generalize s.overrun bytes = u at h hu
    have e := State.settle_quiet (before := s) (u := u) (by rw [hu]; rfl) (by rw [hu]; rfl)
    exact ⟨_, h, e.rep.trans (by rw [hu]; rfl), by rw [e.line, hu]; rfl, by rw [e.line, hu]; rfl,
      e.doubt.trans (by rw [hu]; rfl), e.trays.trans (by rw [hu]; rfl), e.plans.trans (by rw [hu]; rfl),
      e.txq.trans (by rw [hu]; rfl), e.loop.trans (by rw [hu]; rfl)⟩
  · have h := exec_heard_marked hc hr hh hx
    obtain ⟨h1, h2, h3, h4⟩ := s.rejectFrame_settle (frameBytes f) .good .crc f.kind.code
    refine ⟨_, h, h1, h2.trans ?_, h3, h4.trans ?_⟩
    · rw [if_neg (by decide)]
    · simp only [true_or, true_and]; rfl
  · exact ⟨fun c f hc => exec_heard_deaf hc hr hh, exec_receivedFrameRejected_deaf hr hh bytes stops⟩
  · rw [exec_receiverEntersHunting hr, if_pos (by simp [he, hd])]
  · rw [exec_receiverEntersHunting hr, if_neg (by rcases h with h | h <;> simp [h])]

end Sys2Proof.Machine
end

section
/-! SUPPORT. How plans end (R33, R53 to R56, R133 to R135): what placing a frame and ending a plan keep, and the
ending of a lane's only plan evaluated. -/

namespace Sys2Proof.Machine

/-! ### What each part moves -/

theorem State.rejectAll_eq (s : State) (l : Lane) (reason : RejectReason) (tags : List Tag) :
    s.rejectAll l reason tags = { s with rep := (s.rejectAll l reason tags).rep } := by
  unfold State.rejectAll
  induction tags generalizing s with
  | nil => rfl
  | cons t ts ih => rw [List.foldl_cons, ih]; rfl

theorem State.takeBlock_eq (s : State) (l : Lane) (reason : BlockReason) (tags rejected : List Tag) :
    s.takeBlock l reason tags rejected = { s with
      lanes := (s.takeBlock l reason tags rejected).lanes
      rep := (s.takeBlock l reason tags rejected).rep } := by
  unfold State.takeBlock
  dsimp only
  rw [State.rejectAll_eq]
  split
  · rw [State.enterLane_of_ne_running _ _ (by decide)]; rfl
  · rw [State.enterLane_of_ne_running _ _ (by decide)]; rfl
  · rfl
  · rfl
  · rfl

theorem State.addMiss_eq (s : State) (l : Lane) (t : Tag) :
    s.addMiss l t = { s with lanes := (s.addMiss l t).lanes, rep := (s.addMiss l t).rep } := by
  unfold State.addMiss
  dsimp only
  split
  · split
    · rw [State.takeBlock_eq]; rfl
    · rfl
  · rfl

theorem State.countMiss_eq (s : State) (e : PlanEnding) (l : Lane) (t : Tag) :
    s.countMiss e l t = { s with lanes := (s.countMiss e l t).lanes, rep := (s.countMiss e l t).rep } := by
  unfold State.countMiss
  split
  · exact s.addMiss_eq l t
  · rfl

theorem State.countMiss_of_ne {e : PlanEnding} (h : e ≠ .miss) (s : State) (l : Lane) (t : Tag) :
    s.countMiss e l t = s := if_neg h

theorem State.dropEntry_eq (s : State) (i : Nat) :
    s.dropEntry i = { s with
      txq := s.txq.eraseIdx i, line := if i = 0 then s.line.newHead else s.line } := by
  unfold State.dropEntry
  dsimp only
  split <;> rfl

theorem State.withdrawClaim_eq (s : State) (ref : PlanRef) :
    s.withdrawClaim ref = { s with
      txq := (s.withdrawClaim ref).txq, line := (s.withdrawClaim ref).line } := by
  unfold State.withdrawClaim
  split
  · rfl
  · split
    · split
      · rw [State.dropEntry_eq]
      · rfl
    · rfl

theorem State.giveBack_eq (s : State) (ref : PlanRef) (c : Cond) (k : Nat) :
    s.giveBack ref c k = { s with trays := (s.giveBack ref c k).trays } := by
  unfold State.giveBack
  split
  · split
    · exact s.recond_eq ..
    · rfl
  · rfl

theorem State.giveBackAll_eq (s : State) (ref : PlanRef) (c : Cond) (ks : List Nat) :
    s.giveBackAll ref c ks = { s with trays := (s.giveBackAll ref c ks).trays } := by
  unfold State.giveBackAll
  induction ks generalizing s with
  | nil => rfl
  | cons k ks ih => rw [List.foldl_cons, ih, State.giveBack_eq]

/-- R33, R133: a plan taken out of its slot, field by field. -/
theorem State.unplan_eq (s : State) (l : Lane) (sl : Slot) (p : Plan) :
    s.unplan l sl p = { s with
      plans := s.plans.set l sl none, trig := s.trig.set l sl none, aims := s.aims.set l sl none
      trays := (s.unplan l sl p).trays
      lanes := s.lanes.set l ((s.lane l).modParcel p.tag fun r => { r with planSlot := none }) } := by
  unfold State.unplan
  rw [State.giveBackAll_eq]
  rfl

theorem State.reportDropped_eq (s : State) (e : TxEntry) :
    s.reportDropped e = { s with rep := (s.reportDropped e).rep } := rfl

/-! ### One induction for the operation -/

/-- A relation between states that every part of placing a frame and of ending a plan respects, the endings
counted being those of `A`. -/
structure WorkRel (A : PlanEnding → Prop) (R : State → State → Prop) : Prop where
  refl : ∀ s, R s s
  trans : ∀ {s t u}, R s t → R t u → R s u
  drop : ∀ s i, R s (s.dropEntry i)
  append : ∀ s e, R s (s.appendEntry e)
  report : ∀ s e, R s (s.reportDropped e)
  unplan : ∀ s l sl p, R s (s.unplan l sl p)
  claim : ∀ s ref, R s (s.withdrawClaim ref)
  miss : ∀ s e l t, A e → R s (s.countMiss e l t)
  withdraw : A .withdraw

theorem WorkRel.work {A : PlanEnding → Prop} {R : State → State → Prop} (h : WorkRel A R) :
    ∀ (n : Nat) (w : Work) (s : State), (∀ e l sl, w = .ending e l sl → A e) → R s (work n w s)
  | 0, w, s, _ => by rw [Machine.work]; exact h.refl s
  | n + 1, .place e, s, _ => by
    rw [Machine.work]
    split
    · exact h.refl s
    split
    · exact h.refl s
    split
    · exact h.append s e
    split
    · rename_i i q _
      split
      · exact h.trans (h.drop s i) (h.trans (h.work n _ _ fun _ _ _ e => by cases e; exact h.withdraw)
          (h.work n _ _ nofun))
      · exact h.trans (h.drop s i) (h.work n _ _ nofun)
    · split
      · exact h.trans (h.drop s _) (h.trans (h.report _ _) (h.append _ _))
      · exact h.refl s
  | n + 1, .ending e l sl, s, ha => by
    have hw : ∀ u sl', R u (Machine.work n (.ending .withdraw l sl') u) := fun u sl' =>
      h.work n _ u fun _ _ _ e => by cases e; exact h.withdraw
    rw [Machine.work]
    split
    · exact h.refl s
    · rename_i p _
      dsimp only
      have h2 : R s (if p.state = .tentative then (s.unplan l sl p).withdrawClaim { lane := l, tag := p.tag }
          else Machine.work n (.place (plainEntry .release p.target p.span)) (s.unplan l sl p)) := by
        split
        · exact h.trans (h.unplan ..) (h.claim _ _)
        · exact h.trans (h.unplan ..) (h.work n _ _ nofun)
      have h3 := h.trans h2 (h.miss _ e l p.tag (ha e l sl rfl))
      split
      · exact h.trans h3 (hw _ _)
      · exact h3

theorem WorkRel.placeFrame {A : PlanEnding → Prop} {R : State → State → Prop} (h : WorkRel A R) (s : State)
    (kind : FrameKind) (tray : Nat) (span : Span) : R s (s.placeFrame kind tray span) :=
  h.work _ _ _ nofun

theorem WorkRel.endPlan {A : PlanEnding → Prop} {R : State → State → Prop} (h : WorkRel A R) (s : State)
    {e : PlanEnding} (ha : A e) (l : Lane) (sl : Slot) : R s (s.endPlan e l sl) :=
  h.work _ _ _ fun _ _ _ x => by cases x; exact ha

theorem WorkRel.withdrawSlot {A : PlanEnding → Prop} {R : State → State → Prop} (h : WorkRel A R) (s : State)
    (l : Lane) (sl : Slot) : R s (s.withdrawSlot l sl) := by
  unfold State.withdrawSlot
  split
  · split
    · exact h.refl s
    · exact h.endPlan s h.withdraw l sl
  · exact h.refl s

theorem WorkRel.withdrawSlots {A : PlanEnding → Prop} {R : State → State → Prop} (h : WorkRel A R) (l : Lane)
    (slots : List Slot) : ∀ s : State, R s (s.withdrawSlots l slots) := by
  unfold State.withdrawSlots
  induction slots with
  | nil => exact h.refl
  | cons sl sls ih => exact fun s => h.trans (h.withdrawSlot s l sl) (ih _)

theorem WorkRel.withdrawAll {A : PlanEnding → Prop} {R : State → State → Prop} (h : WorkRel A R) (s : State) :
    R s s.withdrawAll :=
  h.trans (h.withdrawSlots .l0 _ s) (h.withdrawSlots .l1 _ _)

end Sys2Proof.Machine
end

section
/-! SUPPORT. What a plan's ending keeps of the plans, the entries, the records and the lanes. -/

namespace Sys2Proof.Machine

/-! ### Records -/

/-- A record that no plan of this station holds stays, but for a partner field that may leave it (R18, R33). -/
structure RecordKept (r q : TrayRec) : Prop where
  cond : q.cond = r.cond
  seen : q.seen = r.seen
  holder : q.holder = r.holder
  plan : q.plan = r.plan
  partner : q.partner = r.partner ∨ q.partner = none

theorem RecordKept.refl (r : TrayRec) : RecordKept r r := ⟨rfl, rfl, rfl, rfl, .inl rfl⟩

theorem RecordKept.trans {r q u : TrayRec} (h : RecordKept r q) (k : RecordKept q u) : RecordKept r u where
  cond := k.cond.trans h.cond
  seen := k.seen.trans h.seen
  holder := k.holder.trans h.holder
  plan := k.plan.trans h.plan
  partner := by
    rcases k.partner with e | e
    · rw [e]; exact h.partner
    · exact .inr e

theorem RecordKept.eq_of_alone {r q : TrayRec} (h : RecordKept r q) (hp : r.partner = none) : q = r := by
  have := h.partner
  rw [hp, or_self] at this
  obtain ⟨h1, h2, h3, h4, -⟩ := h
  cases r; cases q
  simp_all

theorem RecordKept.unpaired {r q : TrayRec} (h : q = r ∨ q = { r with partner := none }) : RecordKept r q := by
  rcases h with rfl | rfl
  · exact .refl _
  · exact ⟨rfl, rfl, rfl, rfl, .inr rfl⟩

theorem State.giveBack_record {s : State} {ref : PlanRef} {c : Cond} {k j : Nat} {q : TrayRec}
    (hq : s.tray? j = some q) (h : j ≠ k ∨ ¬ (q.cond = .own ∧ q.plan = some ref)) :
    ∃ q', (s.giveBack ref c k).tray? j = some q' ∧ RecordKept q q' := by
  unfold State.giveBack
  split
  · rename_i r hr
    split
    · rename_i ho
      have hj : j ≠ k := by
        rintro rfl
        rw [hq, Option.some.injEq] at hr
        exact h.elim (fun n => n rfl) fun n => n (hr ▸ ho)
      obtain ⟨q', h', e⟩ := State.recond_trayRec_kept hr hq hj c r.seen none
      exact ⟨q', h', .unpaired e⟩
    · exact ⟨q, hq, .refl q⟩
  · exact ⟨q, hq, .refl q⟩

theorem State.giveBackAll_record {ref : PlanRef} {c : Cond} {ks : List Nat} : ∀ {s : State} {j : Nat} {q : TrayRec},
    s.tray? j = some q → (j ∉ ks ∨ ¬ (q.cond = .own ∧ q.plan = some ref)) →
    ∃ q', (s.giveBackAll ref c ks).tray? j = some q' ∧ RecordKept q q' := by
  induction ks with
  | nil => exact fun hq _ => ⟨_, hq, .refl _⟩
  | cons k ks ih =>
    intro s j q hq h
    obtain ⟨q1, h1, k1⟩ := State.giveBack_record (c := c) (k := k) (ref := ref) hq
      (h.imp_left fun n e => n (by simp [e]))
    obtain ⟨q2, h2, k2⟩ := ih h1 (h.imp (fun n e => n (List.mem_cons_of_mem _ e))
      fun n e => n (by rwa [k1.cond, k1.plan] at e))
    exact ⟨q2, h2, k1.trans k2⟩

/-- R33, R34: a record of the plan takes its condition, its seen state kept. -/
theorem State.giveBackAll_own {ref : PlanRef} {c : Cond} (hc : c ≠ .own) {ks : List Nat} :
    ∀ {s : State} {j : Nat} {q : TrayRec}, j ∈ ks → s.tray? j = some q → q.cond = .own → q.plan = some ref →
    (s.giveBackAll ref c ks).tray? j =
      some { cond := c, seen := q.seen, holder := none, partner := none, plan := none } := by
  induction ks with
  | nil => exact fun h => absurd h List.not_mem_nil
  | cons k ks ih =>
    intro s j q hj hq ho hp
    by_cases e : j = k
    · subst e
      have h1 : s.giveBack ref c j = s.recond j c q.seen none := by
        simp only [State.giveBack, hq, ho, hp, and_self, if_true]
      obtain ⟨q2, h2, k2⟩ := State.giveBackAll_record (ref := ref) (c := c) (ks := ks)
        (State.recond_trayRec_self hq c q.seen none) (.inr fun h => hc h.1)
      rw [State.giveBackAll, List.foldl_cons, h1]
      exact h2.trans (congrArg some (k2.eq_of_alone rfl))
    · obtain ⟨q1, h1, k1⟩ := State.giveBack_record (c := c) (k := k) (ref := ref) hq (.inl e)
      have h2 := ih ((List.mem_cons.1 hj).resolve_left e) h1 (k1.cond.trans ho) (k1.plan.trans hp)
      rw [k1.seen] at h2
      exact h2

theorem State.unplan_tray (s : State) (l : Lane) (sl : Slot) (p : Plan) (j : Nat) :
    (s.unplan l sl p).tray? j = ((s.clearSlot l sl).giveBackAll { lane := l, tag := p.tag } .opened
      (s.namedTrays p.target p.span)).tray? j := rfl

theorem State.unplan_own {s : State} {l : Lane} {sl : Slot} {p : Plan} {j : Nat} {q : TrayRec}
    (hj : j ∈ s.namedTrays p.target p.span) (hq : s.tray? j = some q) (ho : q.cond = .own)
    (hp : q.plan = some { lane := l, tag := p.tag }) :
    (s.unplan l sl p).tray? j =
      some { cond := .opened, seen := q.seen, holder := none, partner := none, plan := none } := by
  rw [State.unplan_tray]
  exact State.giveBackAll_own (s := s.clearSlot l sl) (by decide) hj hq ho hp

theorem State.unplan_record {s : State} (l : Lane) (sl : Slot) (p : Plan) {j : Nat} {q : TrayRec}
    (hq : s.tray? j = some q)
    (h : j ∉ s.namedTrays p.target p.span ∨ ¬ (q.cond = .own ∧ q.plan = some { lane := l, tag := p.tag })) :
    ∃ q', (s.unplan l sl p).tray? j = some q' ∧ RecordKept q q' := by
  rw [State.unplan_tray]
  exact State.giveBackAll_record (s := s.clearSlot l sl) hq h

/-! ### Plans, entries and records -/

/-- What plans are left, the entries with them; every record that no plan holds stays (R10, R12, R33, R133). -/
structure PlanEnds (s t : State) : Prop where
  plans : ∀ l sl, t.plan l sl = s.plan l sl ∨ t.plan l sl = none
  trig : ∀ l sl, t.trig.get l sl = s.trig.get l sl ∨ t.trig.get l sl = none
  aims : ∀ l sl, t.aims.get l sl = s.aims.get l sl ∨ t.aims.get l sl = none
  records : ∀ j q, s.tray? j = some q → q.cond ≠ .own → ∃ q', t.tray? j = some q' ∧ RecordKept q q'
  planner : t.planner = s.planner
  freeCount : t.freeCount = s.freeCount

theorem PlanEnds.refl (s : State) : PlanEnds s s :=
  ⟨fun _ _ => .inl rfl, fun _ _ => .inl rfl, fun _ _ => .inl rfl, fun _ q h _ => ⟨q, h, .refl q⟩, rfl, rfl⟩

theorem PlanEnds.trans {s t u : State} (h : PlanEnds s t) (k : PlanEnds t u) : PlanEnds s u where
  plans := fun l sl => (k.plans l sl).elim (fun e => e ▸ h.plans l sl) .inr
  trig := fun l sl => (k.trig l sl).elim (fun e => e ▸ h.trig l sl) .inr
  aims := fun l sl => (k.aims l sl).elim (fun e => e ▸ h.aims l sl) .inr
  records := fun j q hq hc => by
    obtain ⟨q1, h1, k1⟩ := h.records j q hq hc
    obtain ⟨q2, h2, k2⟩ := k.records j q1 h1 (by rw [k1.cond]; exact hc)
    exact ⟨q2, h2, k1.trans k2⟩
  planner := k.planner.trans h.planner
  freeCount := k.freeCount.trans h.freeCount

/-- A change that moves neither plans nor records nor what hangs on them. -/
theorem PlanEnds.of_same {s t : State} (hp : t.plans = s.plans) (ht : t.trig = s.trig) (ha : t.aims = s.aims)
    (hr : t.trays = s.trays) (hl : t.planner = s.planner) (hf : t.freeCount = s.freeCount) : PlanEnds s t where
  plans := fun l sl => .inl (by rw [State.plan, hp]; rfl)
  trig := fun _ _ => .inl (by rw [ht])
  aims := fun _ _ => .inl (by rw [ha])
  records := fun j q hq _ => ⟨q, by rw [State.tray?, hr]; exact hq, .refl q⟩
  planner := hl
  freeCount := hf

theorem Four.set_none {α : Type} (f : Four (Option α)) (l m : Lane) (sl sm : Slot) :
    (f.set l sl none).get m sm = f.get m sm ∨ (f.set l sl none).get m sm = none := by
  by_cases h : (m, sm) = (l, sl)
  · cases h; exact .inr (f.get_set_self l sl none)
  · exact .inl (f.get_set_ne none h)

theorem planEnds_workRel : WorkRel (fun _ => True) PlanEnds where
  refl := .refl
  trans := .trans
  drop := fun s i => by rw [State.dropEntry_eq]; exact .of_same rfl rfl rfl rfl rfl rfl
  append := fun s e => by rw [State.appendEntry_eq]; exact .of_same rfl rfl rfl rfl rfl rfl
  report := fun s e => .of_same rfl rfl rfl rfl rfl rfl
  claim := fun s ref => by rw [State.withdrawClaim_eq]; exact .of_same rfl rfl rfl rfl rfl rfl
  miss := fun s e l t _ => by rw [State.countMiss_eq]; exact .of_same rfl rfl rfl rfl rfl rfl
  withdraw := trivial
  unplan := fun s l sl p => by
    have h := s.unplan_eq l sl p
    refine ⟨fun m sm => ?_, fun m sm => ?_, fun m sm => ?_, fun j q hq hc => ?_, by rw [h], by rw [h]⟩
    · rw [h]; exact s.plans.set_none l m sl sm
    · rw [h]; exact s.trig.set_none l m sl sm
    · rw [h]; exact s.aims.set_none l m sl sm
    · exact State.unplan_record l sl p hq (.inr fun e => hc e.1)

/-! ### Lanes -/

/-- A lane whose records may have lost their plan slots, and nothing else (R133). -/
def LaneUnplanned (c d : LaneCtl) : Prop :=
  ∃ f : Parcel → Parcel, d = { c with parcels := c.parcels.map f } ∧
    ∀ r, f r = r ∨ f r = { r with planSlot := none }

theorem LaneUnplanned.refl (c : LaneCtl) : LaneUnplanned c c :=
  ⟨id, by rw [List.map_id], fun _ => .inl rfl⟩

theorem LaneUnplanned.trans {c d e : LaneCtl} (h : LaneUnplanned c d) (k : LaneUnplanned d e) :
    LaneUnplanned c e := by
  obtain ⟨f, rfl, hf⟩ := h
  obtain ⟨g, rfl, hg⟩ := k
  refine ⟨g ∘ f, by rw [← List.map_map], fun r => ?_⟩
  change g (f r) = r ∨ g (f r) = _
  rcases hf r with e | e <;> rw [e]
  · exact hg r
  · exact .inr ((hg _).elim id id)

theorem LaneUnplanned.unplan (c : LaneCtl) (t : Tag) :
    LaneUnplanned c (c.modParcel t fun r => { r with planSlot := none }) :=
  ⟨fun r => if r.tag = t then { r with planSlot := none } else r, rfl, fun r => by
    by_cases h : r.tag = t
    · exact .inr (if_pos h)
    · exact .inl (if_neg h)⟩

theorem LaneUnplanned.map_eq {c d : LaneCtl} {α : Type} (h : LaneUnplanned c d) (g : Parcel → α)
    (hg : ∀ r, g { r with planSlot := none } = g r) : d.parcels.map g = c.parcels.map g := by
  obtain ⟨f, rfl, hf⟩ := h
  rw [List.map_map]
  refine List.map_congr_left fun r _ => ?_
  rcases hf r with e | e
  · exact congrArg g e
  · exact (congrArg g e).trans (hg r)

theorem laneUnplanned_workRel :
    WorkRel (· ≠ .miss) (fun s t => ∀ l, LaneUnplanned (s.lane l) (t.lane l)) where
  refl := fun _ _ => .refl _
  trans := fun h k l => (h l).trans (k l)
  drop := fun s i l => by rw [State.dropEntry_eq]; exact .refl _
  append := fun s e l => by rw [State.appendEntry_eq]; exact .refl _
  report := fun s e l => .refl _
  claim := fun s ref l => by rw [State.withdrawClaim_eq]; exact .refl _
  miss := fun s e l t h m => by rw [State.countMiss_of_ne h]; exact .refl _
  withdraw := by decide
  unplan := fun s l sl p m => by
    rw [State.unplan_eq]
    by_cases h : m = l
    · subst h
      have := LaneUnplanned.unplan (s.lane m) p.tag
      refine Eq.subst (motive := fun d => LaneUnplanned (s.lane m) d) ?_ this
      exact (Two.get_set_self _ _ _).symm
    · refine Eq.subst (motive := fun d => LaneUnplanned (s.lane m) d) ?_ (.refl (s.lane m))
      exact (Two.get_set_ne _ _ h).symm

/-! ### The slot of a plan that ends -/

theorem State.unplan_plan (s : State) (l : Lane) (sl : Slot) (p : Plan) :
    (s.unplan l sl p).plan l sl = none ∧ (s.unplan l sl p).trig.get l sl = none ∧
      (s.unplan l sl p).aims.get l sl = none := by
  rw [State.unplan_eq]
  exact ⟨s.plans.get_set_self l sl none, s.trig.get_set_self l sl none, s.aims.get_set_self l sl none⟩

theorem PlanEnds.plan_none {s t : State} (h : PlanEnds s t) {l : Lane} {sl : Slot} (hn : s.plan l sl = none) :
    t.plan l sl = none := by
  rcases h.plans l sl with e | e
  · rw [e, hn]
  · exact e

theorem PlanEnds.trig_none {s t : State} (h : PlanEnds s t) {l : Lane} {sl : Slot}
    (hn : s.trig.get l sl = none) : t.trig.get l sl = none := by
  rcases h.trig l sl with e | e
  · rw [e, hn]
  · exact e

/-- A plan that ends frees its slot first; what follows ends no other plan but as `work` does. -/
theorem work_ending_from_unplan {n : Nat} {e : PlanEnding} {l : Lane} {sl : Slot} {s : State} {p : Plan}
    (hp : s.plan l sl = some p) {A : PlanEnding → Prop} {R : State → State → Prop} (h : WorkRel A R) (ha : A e) :
    R (s.unplan l sl p) (work (n + 1) (.ending e l sl) s) := by
  rw [work]
  simp only [hp]
  have h2 : R (s.unplan l sl p) ((if p.state = .tentative then
      (s.unplan l sl p).withdrawClaim { lane := l, tag := p.tag }
      else work n (.place (plainEntry .release p.target p.span)) (s.unplan l sl p)).countMiss e l p.tag) := by
    refine h.trans ?_ (h.miss _ e l p.tag ha)
    split
    · exact h.claim _ _
    · exact h.work n _ _ nofun
  split
  · exact h.trans h2 (h.work n _ _ fun _ _ _ x => by cases x; exact h.withdraw)
  · exact h2

theorem State.endPlan_from_unplan {s : State} {e : PlanEnding} {l : Lane} {sl : Slot} {p : Plan}
    (hp : s.plan l sl = some p) : PlanEnds (s.unplan l sl p) (s.endPlan e l sl) :=
  work_ending_from_unplan hp planEnds_workRel trivial

theorem State.endPlan_plan (s : State) (e : PlanEnding) (l : Lane) (sl : Slot) :
    (s.endPlan e l sl).plan l sl = none := by
  cases hp : s.plan l sl with
  | none => exact (planEnds_workRel.endPlan s trivial l sl).plan_none hp
  | some p => exact (State.endPlan_from_unplan hp).plan_none (s.unplan_plan l sl p).1

/-- The plan's records are OPEN after its ending, their seen state kept (R33). -/
theorem State.endPlan_record {s : State} {e : PlanEnding} {l : Lane} {sl : Slot} {p : Plan} {j : Nat} {q : TrayRec}
    (hp : s.plan l sl = some p) (hj : j ∈ s.namedTrays p.target p.span) (hq : s.tray? j = some q)
    (ho : q.cond = .own) (hr : q.plan = some { lane := l, tag := p.tag }) :
    (s.endPlan e l sl).tray? j =
      some { cond := .opened, seen := q.seen, holder := none, partner := none, plan := none } := by
  have h1 := State.unplan_own (sl := sl) hj hq ho hr
  obtain ⟨q', h2, k⟩ := (State.endPlan_from_unplan (e := e) hp).records j _ h1 (by simp)
  exact h2.trans (congrArg some (k.eq_of_alone rfl))

/-! ### A frame placed with room, and the ending of a lane's only plan -/

theorem work_place_of_room {n : Nat} {e : TxEntry} {s : State} (he : s.line.enabled = true)
    (ht : s.hasTwin e = false) (hq : s.txq.length < 8) : work (n + 1) (.place e) s = s.appendEntry e := by
  rw [work, if_neg (by simp [he]), if_neg (by simp [ht]), if_pos (by exact hq)]

theorem State.placeFrame_of_room {s : State} {kind : FrameKind} {tray : Nat} {span : Span}
    (he : s.line.enabled = true) (ht : s.hasTwin (plainEntry kind tray span) = false) (hq : s.txq.length < 8) :
    s.placeFrame kind tray span = s.appendEntry (plainEntry kind tray span) :=
  work_place_of_room he ht hq

theorem State.nextEnding?_none {s : State} {l : Lane} {sl : Slot} (h : s.plan l (otherSlot sl) = none)
    (e : PlanEnding) (p : Plan) : s.nextEnding? e l sl p = none := by
  unfold State.nextEnding? State.laterSlot?
  rw [h]
  split <;> rfl

theorem State.unplan_plan_other (s : State) (l : Lane) (sl : Slot) (p : Plan) :
    (s.unplan l sl p).plan l (otherSlot sl) = s.plan l (otherSlot sl) := by
  rw [State.unplan_eq]
  cases l <;> cases sl <;> rfl

theorem work_ending_sole (n : Nat) {s : State} {e : PlanEnding} {l : Lane} {sl : Slot} {p : Plan}
    (hp : s.plan l sl = some p) (ho : s.plan l (otherSlot sl) = none) :
    work (n + 1) (.ending e l sl) s = (if p.state = .tentative then
        (s.unplan l sl p).withdrawClaim { lane := l, tag := p.tag }
      else work n (.place (plainEntry .release p.target p.span)) (s.unplan l sl p)).countMiss e l p.tag := by
  have hn : PlanEnds (s.unplan l sl p) ((if p.state = .tentative then
        (s.unplan l sl p).withdrawClaim { lane := l, tag := p.tag }
      else work n (.place (plainEntry .release p.target p.span)) (s.unplan l sl p)).countMiss e l p.tag) := by
    refine .trans ?_ (planEnds_workRel.miss _ e l p.tag trivial)
    split
    · exact planEnds_workRel.claim _ _
    · exact planEnds_workRel.work n _ _ nofun
  rw [work]
  simp only [hp]
  rw [State.nextEnding?_none (hn.plan_none ((s.unplan_plan_other l sl p).trans ho))]

/-- The ending of a lane's only plan. -/
theorem State.endPlan_sole {s : State} {e : PlanEnding} {l : Lane} {sl : Slot} {p : Plan}
    (hp : s.plan l sl = some p) (ho : s.plan l (otherSlot sl) = none) :
    s.endPlan e l sl = (if p.state = .tentative then
        (s.unplan l sl p).withdrawClaim { lane := l, tag := p.tag }
      else work 15 (.place (plainEntry .release p.target p.span)) (s.unplan l sl p)).countMiss e l p.tag :=
  work_ending_sole 15 hp ho

theorem State.endPlan_tentative {s : State} {e : PlanEnding} {l : Lane} {sl : Slot} {p : Plan}
    (hp : s.plan l sl = some p) (ho : s.plan l (otherSlot sl) = none) (ht : p.state = .tentative) :
    s.endPlan e l sl =
      ((s.unplan l sl p).withdrawClaim { lane := l, tag := p.tag }).countMiss e l p.tag := by
  rw [State.endPlan_sole hp ho, if_pos ht]

theorem State.unplan_txq (s : State) (l : Lane) (sl : Slot) (p : Plan) :
    (s.unplan l sl p).txq = s.txq ∧ (s.unplan l sl p).line = s.line ∧ (s.unplan l sl p).rep = s.rep := by
  rw [State.unplan_eq]
  exact ⟨rfl, rfl, rfl⟩

theorem State.hasTwin_congr {s t : State} (h : t.txq = s.txq) (e : TxEntry) : t.hasTwin e = s.hasTwin e := by
  rw [State.hasTwin, h]; rfl

theorem State.endPlan_placed {s : State} {e : PlanEnding} {l : Lane} {sl : Slot} {p : Plan}
    (hp : s.plan l sl = some p) (ho : s.plan l (otherSlot sl) = none) (ht : p.state ≠ .tentative)
    (he : s.line.enabled = true) (hw : s.hasTwin (plainEntry .release p.target p.span) = false)
    (hq : s.txq.length < 8) :
    s.endPlan e l sl = ((s.unplan l sl p).appendEntry (plainEntry .release p.target p.span)).countMiss e l
      p.tag := by
  obtain ⟨h1, h2, -⟩ := s.unplan_txq l sl p
  rw [State.endPlan_sole hp ho, if_neg ht, work_place_of_room (by rw [h2]; exact he)
    (by rw [State.hasTwin_congr h1]; exact hw) (by rw [h1]; exact hq)]

/-! ### The CLAIM of a plan in the queue (R56) -/

theorem State.withdrawClaim_of_none {s : State} {ref : PlanRef}
    (h : ∀ q ∈ s.txq, q.plan ≠ some ref) : s.withdrawClaim ref = s := by
  have : s.txq.findIdx? (fun e => e.kind.isClaim && e.plan == some ref && !e.ended) = none := by
    rw [List.findIdx?_eq_none_iff]
    intro q hq
    simp [h q hq]
  simp only [State.withdrawClaim, this]

theorem State.withdrawClaim_of_split {s : State} {ref : PlanRef} {older younger : List TxEntry} {e : TxEntry}
    (hs : s.txq = older ++ e :: younger) (hk : e.kind.isClaim = true) (hp : e.plan = some ref)
    (hw : e.phase = .waiting) (he : e.ended = false) (ho : ∀ q ∈ older, q.plan ≠ some ref) :
    s.withdrawClaim ref = s.dropEntry older.length := by
  have hi : s.txq.findIdx? (fun e => e.kind.isClaim && e.plan == some ref && !e.ended) = some older.length := by
    rw [hs, List.findIdx?_append]
    have h1 : older.findIdx? (fun e => e.kind.isClaim && e.plan == some ref && !e.ended) = none := by
      rw [List.findIdx?_eq_none_iff]
      intro q hq
      simp [ho q hq]
    rw [h1, List.findIdx?_cons]
    simp [hk, hp, he]
  have hg : s.txq[older.length]? = some e := by rw [hs]; simp
  simp only [State.withdrawClaim, hi, hg, hw, if_true]

theorem State.dropEntry_split {s : State} {older younger : List TxEntry} {e : TxEntry}
    (hs : s.txq = older ++ e :: younger) : (s.dropEntry older.length).txq = older ++ younger := by
  rw [State.dropEntry_txq, hs, List.eraseIdx_append_of_length_le (le_refl _), Nat.sub_self]
  rfl

theorem State.withdrawClaim_txq {s : State} {ref : PlanRef} {older younger : List TxEntry} {e : TxEntry}
    (hs : s.txq = older ++ e :: younger) (hk : e.kind.isClaim = true) (hp : e.plan = some ref)
    (hw : e.phase = .waiting) (he : e.ended = false) (ho : ∀ q ∈ older, q.plan ≠ some ref) :
    (s.withdrawClaim ref).txq = older ++ younger := by
  rw [State.withdrawClaim_of_split hs hk hp hw he ho, State.dropEntry_split hs]

/-! ### References -/

theorem State.slotOf?_plan {s : State} {l : Lane} {t : Tag} {sl : Slot} (h : s.slotOf? l t = some sl) :
    ∃ p, s.plan l sl = some p ∧ p.tag = t := by
  unfold State.slotOf? at h
  split at h
  · rename_i q p hp
    split at h
    · cases h; exact ⟨p, hp, by assumption⟩
    · split at h
      · rename_i q hq
        split at h
        · cases h; exact ⟨q, hq, by assumption⟩
        · cases h
      · cases h
  · rename_i q hp hq
    split at h
    · cases h; exact ⟨q, hq, by assumption⟩
    · cases h
  · cases h

theorem State.slotOf?_tag {s : State} {ref : PlanRef} {sl : Slot} {p : Plan}
    (h : s.slotOf? ref.lane ref.tag = some sl) (hp : s.plan ref.lane sl = some p) :
    ref = { lane := ref.lane, tag := p.tag } := by
  obtain ⟨q, hq, ht⟩ := State.slotOf?_plan h
  rw [hp, Option.some.injEq] at hq
  subst hq
  cases ref
  simp_all

theorem State.slotOf?_congr {s t : State} (h : t.plans = s.plans) (l : Lane) (g : Tag) :
    t.slotOf? l g = s.slotOf? l g := by
  unfold State.slotOf? State.plan
  rw [h]

theorem State.endRef_of_slot {s : State} {ref : PlanRef} {sl : Slot}
    (h : s.slotOf? ref.lane ref.tag = some sl) (e : PlanEnding) : s.endRef e ref = s.endPlan e ref.lane sl := by
  simp only [State.endRef, h]

theorem State.endRef_of_none {s : State} {ref : PlanRef} (h : s.slotOf? ref.lane ref.tag = none)
    (e : PlanEnding) : s.endRef e ref = s := by
  simp only [State.endRef, h]

end Sys2Proof.Machine
end

section
/-! SUPPORT. The head of the transmit queue: attempts, failures, completion and abandonment (R56 to R63). -/

open Sys2Proof Sys2Proof.Machine

namespace Sys2Proof.Machine

/-! ### The commands with a head (R58 to R63) -/

theorem State.head?_of_cons {s : State} {e : TxEntry} {rest : List TxEntry} (he : s.line.enabled = true)
    (hq : s.txq = e :: rest) : s.head? = some e := by
  rw [State.head?, if_pos he, hq]; rfl

theorem exec_frameAttemptStart {s : State} {e : TxEntry} (hr : s.pins.rstLow = false) (hh : s.head? = some e)
    (hw : e.phase = .waiting) (hb : s.line.backoff = 0) :
    exec .frameAttemptStart s = .next (if e.kind.isClaim && !s.recheck e then
      ((s.modLine LineIf.sawIdle).withdrawHead e).settle s false false else s.beginAttempt) := by
  change execFrameAttemptStart s = _
  unfold execFrameAttemptStart
  refine (State.unlessHeld_of_rstHigh hr _).trans ?_
  simp only [hh, hw, hb, and_self, if_true]

theorem exec_attemptCollision {s : State} {e : TxEntry} {bit : Nat} {sent : Bool}
    (hr : s.pins.rstLow = false) (hh : s.head? = some e) (hw : e.phase = .sending)
    (hb : (frameBits (s.frameOf e))[bit]? = some sent) :
    exec (.attemptCollision bit) s = .next (((s.readBack e bit sent).endAttempt e sent).settle s false false) := by
  change execAttemptCollision bit s = _
  unfold execAttemptCollision
  refine (State.unlessHeld_of_rstHigh hr _).trans ?_
  simp only [hh, hw, hb, if_true]

theorem exec_backoffExpired {s : State} {e : TxEntry} (hr : s.pins.rstLow = false) (hh : s.head? = some e)
    (hw : e.phase = .waiting) :
    exec .backoffExpired s = .next { s with line := { s.line with backoff := 0 } } := by
  change execBackoffExpired s = _
  unfold execBackoffExpired
  refine (State.unlessHeld_of_rstHigh hr _).trans ?_
  simp only [hh, hw, if_true]
  rfl

theorem exec_lineHeld {s : State} {e : TxEntry} (hr : s.pins.rstLow = false) (hh : s.head? = some e)
    (hw : e.phase = .waiting) :
    exec .lineHeld s = .next
      (((s.modLine fun c => { c with holdCount := 0 }).failAttempt e).settle s false false) := by
  change execLineHeld s = _
  unfold execLineHeld
  refine (State.unlessHeld_of_rstHigh hr _).trans ?_
  simp only [hh, hw, if_true]

theorem exec_frameTxComplete {s : State} {e : TxEntry} (hr : s.pins.rstLow = false) (hh : s.head? = some e)
    (hw : e.phase = .sending) :
    exec .frameTxComplete s = .next ((s.completeHead e).settle s false false) := by
  change execFrameTxComplete s = _
  unfold execFrameTxComplete
  refine (State.unlessHeld_of_rstHigh hr _).trans ?_
  simp only [hh, hw, if_true]

theorem exec_entryAbandoned {s : State} {e : TxEntry} (hr : s.pins.rstLow = false) (hh : s.head? = some e) :
    exec .entryAbandoned s = .next ((s.abandonHead e).settle s false false) := by
  change execEntryAbandoned s = _
  unfold execEntryAbandoned
  refine (State.unlessHeld_of_rstHigh hr _).trans ?_
  simp only [hh]

/-! ### The head leaves the queue -/

/-- The head leaves the queue, its counts cleared, and nothing else moves. -/
theorem State.dropHead_eq {s : State} {e : TxEntry} {rest : List TxEntry} (hq : s.txq = e :: rest) :
    s.dropEntry 0 = { s with txq := rest, line := s.line.newHead } := by
  rw [State.dropEntry_eq, hq]
  rfl

theorem TxEntry.livePlan?_eq (e : TxEntry) : e.livePlan? = if e.ended then none else e.plan := rfl

/-- A CLAIM without a live plan leaves alone (R56, R58, R63). -/
theorem State.withdrawHead_gone {s : State} {e : TxEntry}
    (h : e.ended = true ∨ ∃ ref, e.plan = some ref ∧ s.slotOf? ref.lane ref.tag = none) :
    s.withdrawHead e = s.dropEntry 0 := by
  have hd : ∀ ref : PlanRef, s.slotOf? ref.lane ref.tag = none →
      (s.dropEntry 0).endRef .withdraw ref = s.dropEntry 0 := fun ref hn => by
    refine State.endRef_of_none ?_ _
    rw [State.slotOf?_congr (by rw [State.dropEntry_eq])]
    exact hn
  unfold State.withdrawHead
  rcases h with h | ⟨ref, hp, hn⟩
  · simp [TxEntry.livePlan?, h]
  · by_cases he : e.ended = true
    · simp [TxEntry.livePlan?, he]
    · simp only [TxEntry.livePlan?, he, Bool.false_eq_true, if_false, hp, hd ref hn]

theorem State.withdrawHead_live {s : State} {e : TxEntry} {ref : PlanRef} {sl : Slot} (he : e.ended = false)
    (hp : e.plan = some ref) (hs : s.slotOf? ref.lane ref.tag = some sl) :
    s.withdrawHead e = (s.dropEntry 0).endPlan .withdraw ref.lane sl := by
  have hs' : (s.dropEntry 0).slotOf? ref.lane ref.tag = some sl := by
    rw [State.slotOf?_congr (by rw [State.dropEntry_eq])]
    exact hs
  simp only [State.withdrawHead, TxEntry.livePlan?, he, Bool.false_eq_true, if_false, hp,
    State.endRef_of_slot hs']

theorem State.recheck_gone {s : State} {e : TxEntry}
    (h : e.ended = true ∨ ∃ ref, e.plan = some ref ∧ s.slotOf? ref.lane ref.tag = none) :
    s.recheck e = false := by
  unfold State.recheck
  rcases h with h | ⟨ref, hp, hn⟩
  · simp [TxEntry.livePlan?, h]
  · by_cases he : e.ended = true
    · simp [TxEntry.livePlan?, he]
    · simp [TxEntry.livePlan?, he, hp, State.planOf?, hn]

theorem State.mayPlan_congr {s t : State} (hl : t.loop = s.loop) (ht : t.table = s.table) :
    t.mayPlan = s.mayPlan := by
  unfold State.mayPlan State.online State.locked State.cfgMinSpeed State.cw
  rw [hl, ht]

theorem State.abandonHead_of_claim {s : State} {e : TxEntry} (h : e.kind.isClaim = true) :
    s.abandonHead e = s.withdrawHead e := if_pos h

theorem State.abandonHead_of_other {s : State} {e : TxEntry} (h : e.kind.isClaim = false) :
    s.abandonHead e = (s.dropEntry 0).reportDropped e := if_neg (by simp [h])

theorem State.leavesNothing_of {s : State} (h : s.table.station ≠ .leaving ∨ s.txq ≠ []) (before : State)
    (test : Bool) : s.LeavesNothing before test :=
  h.elim (fun h => State.leavesNothing_of_not_leaving h _ _) fun h => State.leavesNothing_of_txq_ne h _ _

theorem LaneMoved.map_eq {c d : LaneCtl} {α : Type} (h : LaneMoved c d) (g : Parcel → α)
    (hg : ∀ r, g { r with place := .transferring } = g r) : d.parcels.map g = c.parcels.map g := by
  obtain ⟨f, e, hf⟩ := h.parcels
  rw [e, List.map_map]
  refine List.map_congr_left fun r _ => ?_
  rcases hf r with e | e
  · exact congrArg g e
  · exact (congrArg g e).trans (hg r)

/-- The end of an event at which the head left the queue alone. -/
theorem State.dropHead_settle {s v : State} {e : TxEntry} {rest : List TxEntry} (hq : v.txq = e :: rest)
    (hp : v.plans = s.plans) (hs : v.table.station ≠ .leaving ∨ rest ≠ []) :
    EventEnd (v.dropEntry 0) ((v.dropEntry 0).settle s false false) := by
  have hd := State.dropHead_eq hq
  generalize v.dropEntry 0 = u at hd
  exact State.settle_end (State.plansNothing_of_plans (by rw [hd]; exact hp))
    (State.leavesNothing_of (by rw [hd]; exact hs) _ _)

/-- The head CLAIM leaves with its TENTATIVE plan, its lane's only one, where no other entry carries it: the plan's
slot is freed and nothing else of the queue moves. -/
theorem State.withdrawHead_sole {v : State} {e : TxEntry} {rest : List TxEntry} {ref : PlanRef} {sl : Slot}
    {p : Plan} (hq : v.txq = e :: rest) (he : e.ended = false) (hp : e.plan = some ref)
    (hs : v.slotOf? ref.lane ref.tag = some sl) (hpl : v.plan ref.lane sl = some p) (ht : p.state = .tentative)
    (ho : v.plan ref.lane (otherSlot sl) = none) (hr : ∀ q ∈ rest, q.plan ≠ some ref) :
    v.withdrawHead e = (v.dropEntry 0).unplan ref.lane sl p := by
  have hpl' : (v.dropEntry 0).plan ref.lane sl = some p := by rw [State.dropEntry_eq]; exact hpl
  have ho' : (v.dropEntry 0).plan ref.lane (otherSlot sl) = none := by rw [State.dropEntry_eq]; exact ho
  have href := State.slotOf?_tag hs hpl
  rw [State.withdrawHead_live he hp hs, State.endPlan_tentative hpl' ho' ht, State.countMiss_of_ne (by decide),
    ← href]
  refine State.withdrawClaim_of_none fun q hq' => hr q ?_
  rw [((v.dropEntry 0).unplan_txq ref.lane sl p).1, State.dropHead_eq hq] at hq'
  exact hq'

/-- Settles O37: the attempt begins, or the CLAIM leaves, alone or with its plan. -/
theorem attemptSendsHead : Obligations.AttemptSendsHead := by
  unfold Obligations.AttemptSendsHead
  intro s e rest hr he hq hw hb
  have hexec := exec_frameAttemptStart hr (State.head?_of_cons he hq) hw hb
  have hgone : e.kind.isClaim = true → s.table.station ≠ .leaving →
      (e.ended = true ∨ ∃ ref, e.plan = some ref ∧ s.slotOf? ref.lane ref.tag = none) →
      ∃ t, exec .frameAttemptStart s = .next t ∧ t.txq = rest ∧ t.line.attempt = 0 ∧
        t.line.backoff = 0 ∧ t.trays = s.trays ∧ t.plans = s.plans ∧ t.rep = s.rep := by
    intro hc hs hg
    rw [if_pos (by simp [hc, State.recheck_gone hg]), State.withdrawHead_gone (s := s.modLine LineIf.sawIdle) hg]
      at hexec
    have hq' : (s.modLine LineIf.sawIdle).txq = e :: rest := hq
    have ev := State.dropHead_settle (s := s) hq' rfl (.inl hs)
    have hd := State.dropHead_eq hq'
    generalize (s.modLine LineIf.sawIdle).dropEntry 0 = u at hexec ev hd
    exact ⟨_, hexec, ev.txq.trans (by rw [hd]), by rw [ev.line, hd]; rfl, by rw [ev.line, hd]; rfl,
      ev.trays.trans (by rw [hd]; rfl), ev.plans.trans (by rw [hd]; rfl), ev.rep.trans (by rw [hd]; rfl)⟩
  refine ⟨fun h => ?_, fun ref hc hp hn hs => hgone hc hs (.inr ⟨ref, hp, hn⟩),
    fun hc hen hs => hgone hc hs (.inl hen), fun ref sl p hc hen hp hs hpl ht hrc ho hrest hm hst => ?_⟩
  · have hno : ¬ (e.kind.isClaim && !s.recheck e) = true := by
      cases hc : e.kind.isClaim
      · simp
      · simp [h hc]
    rw [hexec, if_neg hno]
    refine congrArg Host.Outcome.next ?_
    unfold State.beginAttempt
    rw [hq]
    rfl
  · rw [if_pos (by simp [hc, hrc])] at hexec
    have hq' : (s.modLine LineIf.sawIdle).txq = e :: rest := hq
    have hh := State.withdrawHead_sole hq' hen hp hs hpl ht ho hrest
    rw [hh] at hexec
    have hd := State.dropHead_eq hq'
    generalize hg : (s.modLine LineIf.sawIdle).dropEntry 0 = d at hexec hd
    have hu := d.unplan_eq ref.lane sl p
    have hsl := d.unplan_plan ref.lane sl p
    have hnt : d.namedTrays p.target p.span = s.namedTrays p.target p.span := by rw [hd]; rfl
    have hrec := fun j (hj : j ∈ s.namedTrays p.target p.span) q (h1 : s.tray? j = some q) =>
      State.unplan_own (s := d) (l := ref.lane) (sl := sl) (q := q) (hnt ▸ hj) (by rw [hd]; exact h1)
    generalize d.unplan ref.lane sl p = u at hexec hu hsl hrec
    have ev : EventEnd u (u.settle s false false) :=
      State.settle_end (.inr (.inl ((State.mayPlan_congr (by rw [hu, hd]; rfl) (by rw [hu, hd]; rfl)).trans hm)))
        (State.leavesNothing_of_not_leaving (by rw [hu, hd]; exact hst) _ _)
    refine ⟨_, hexec, ev.txq.trans (by rw [hu, hd]), by rw [ev.line, hu, hd]; rfl, by rw [ev.line, hu, hd]; rfl,
      (ev.plan _ _).trans hsl.1, by rw [ev.trig]; exact hsl.2.1, ev.rep.trans (by rw [hu, hd]; rfl),
      fun j hj q h1 h2 h3 => (ev.tray j).trans (hrec j hj q h1 h2 ?_)⟩
    rw [h3, ← State.slotOf?_tag hs hpl]

/-- Settles O40: the head leaves, reported or with its plan. -/
theorem abandonedHeadLeavesQueue : Obligations.AbandonedHeadLeavesQueue := by
  unfold Obligations.AbandonedHeadLeavesQueue
  intro s e rest hr he hq hlv
  have hexec := exec_entryAbandoned hr (State.head?_of_cons he hq)
  have hd := State.dropHead_eq hq
  have hst : s.table.station ≠ .leaving ∨ rest ≠ [] := by
    by_cases h : s.table.station = .leaving
    · exact .inr (hlv h)
    · exact .inl h
  refine ⟨fun hc => ?_, fun ref hc hp hg => ?_, fun ref sl p hc hen hp hs hpl ht hm hnl => ?_⟩
  · rw [State.abandonHead_of_other hc, State.reportDropped_eq, hd] at hexec
    generalize hu : ({ ({ s with txq := rest, line := s.line.newHead } : State) with rep := _ } : State) = u at hexec
    have ev : EventEnd u (u.settle s false false) :=
      State.settle_end (State.plansNothing_of_plans (by rw [← hu]))
        (State.leavesNothing_of (by rw [← hu]; exact hst) _ _)
    exact ⟨_, hexec, ev.txq.trans (by rw [← hu]), ev.rep.trans (by rw [← hu]; rfl), by rw [ev.line, ← hu]; rfl,
      by rw [ev.line, ← hu]; rfl, ev.trays.trans (by rw [← hu]), ev.plans.trans (by rw [← hu])⟩
  · rw [State.abandonHead_of_claim hc,
      State.withdrawHead_gone (hg.imp_right fun hn => ⟨ref, hp, hn⟩)] at hexec
    have ev := State.dropHead_settle (s := s) hq rfl hst
    rw [hd] at ev hexec
    exact ⟨_, hexec, ev.txq, ev.rep, by rw [ev.line]; rfl, by rw [ev.line]; rfl, ev.trays, ev.plans⟩
  · have hpl' : (s.dropEntry 0).plan ref.lane sl = some p := by rw [hd]; exact hpl
    have hsole := State.withdrawHead_sole hq hen hp hs hpl ht
    rw [State.abandonHead_of_claim hc] at hexec
    have hw := (s.dropEntry_planWork 0).trans ((s.dropEntry 0).endPlan_planWork .withdraw ref.lane sl)
    have hgone := (s.dropEntry 0).endPlan_plan .withdraw ref.lane sl
    have htrig := (State.endPlan_from_unplan (e := .withdraw) hpl').trig_none
      ((s.dropEntry 0).unplan_plan ref.lane sl p).2.1
    have hrec := fun j (hj : j ∈ s.namedTrays p.target p.span) q (h1 : s.tray? j = some q) =>
      State.endPlan_record (s := s.dropEntry 0) (e := .withdraw) (sl := sl) (j := j) (q := q) hpl'
        (by rw [hd]; exact hj) (by rw [hd]; exact h1)
    rw [← State.withdrawHead_live hen hp hs] at hw hgone htrig hrec
    have hlanes := (laneUnplanned_workRel.unplan (s.dropEntry 0) ref.lane sl p ref.lane).map_eq Parcel.misses
      fun _ => rfl
    have hu := (s.dropEntry 0).unplan_eq ref.lane sl p
    generalize s.withdrawHead e = u at hexec hw hgone htrig hrec hsole
    have ev : EventEnd u (u.settle s false false) :=
      State.settle_end (.inr (.inl ((State.mayPlan_congr hw.loop hw.table).trans hm)))
        (State.leavesNothing_of_not_leaving (by rw [hw.table]; exact hnl) _ _)
    refine ⟨_, hexec, (ev.plan _ _).trans hgone, by rw [ev.trig]; exact htrig, ev.loop.trans hw.loop,
      fun j hj q h1 h2 h3 => (ev.tray j).trans (hrec j hj q h1 h2 (h3.trans ?_)), fun ho hr' => ?_⟩
    · rw [← State.slotOf?_tag hs hpl]
    · have hu' := (hsole ho hr').trans hu
      rw [← hsole ho hr'] at hlanes
      generalize s.dropEntry 0 = d at hd hu' hlanes
      refine ⟨ev.txq.trans (by rw [hu', hd]), by rw [ev.line, hu', hd]; rfl, by rw [ev.line, hu', hd]; rfl,
        ev.rep.trans (by rw [hu', hd]), ?_⟩
      refine ((ev.lanes ref.lane).map_eq Parcel.misses fun _ => rfl).trans (hlanes.trans ?_)
      rw [hd]
      rfl

end Sys2Proof.Machine
end

section
/-! SUPPORT. The head's frame completes, or its attempt fails (R59 to R62). -/

open Sys2Proof Sys2Proof.Machine

namespace Sys2Proof.Machine

/-! ### A completed frame (R31, R62) -/

theorem State.ownFrame_eq (s : State) (e : TxEntry) :
    s.ownFrame e = { s with plans := (s.ownFrame e).plans } := by
  unfold State.ownFrame
  split
  · split <;> rfl
  · rfl

theorem State.ownFrame_of_none {s : State} {e : TxEntry} (h : e.plan = none) : s.ownFrame e = s := by
  simp only [State.ownFrame, h]

theorem State.ownFrame_plan {s : State} {e : TxEntry} {ref : PlanRef} {sl : Slot} {p : Plan}
    (he : e.plan = some ref) (hs : s.slotOf? ref.lane ref.tag = some sl) (hp : s.plan ref.lane sl = some p) :
    (s.ownFrame e).plan ref.lane sl =
      some (if p.state = .tentative then { p with state := .claimed } else p) := by
  simp only [State.ownFrame, he, hs, hp]
  exact s.plans.get_set_self ref.lane sl _

/-- A completed frame ends no plan. -/
theorem State.ownFrame_isSome (s : State) (e : TxEntry) (m : Lane) (sm : Slot) :
    ((s.ownFrame e).plan m sm).isSome = (s.plan m sm).isSome := by
  unfold State.ownFrame
  split
  · rename_i ref _
    split
    · rename_i sl _
      by_cases h : (m, sm) = (ref.lane, sl)
      · cases h
        refine (congrArg Option.isSome (s.plans.get_set_self _ _ _)).trans ?_
        rw [Option.isSome_map]
      · exact congrArg Option.isSome (s.plans.get_set_ne _ h)
    · rfl
  · rfl

theorem planEnded_of_isSome_eq {s t : State} (h : ∀ l sl, (t.plan l sl).isSome = (s.plan l sl).isSome) :
    planEnded s t = false := by
  unfold planEnded
  rw [List.any_eq_false]
  intro x _
  rw [← Option.not_isSome, h]
  cases (s.plan x.1 x.2).isSome <;> decide

/-- What the receiver is left as by a frame of this station's own that completes (log 19). -/
def LineIf.completed (c : LineIf) (bits : List Bool) : LineIf :=
  { c.newHead with idleRun := idleRunAfter bits, rx := .hunting, rxBuf := [], rxFault := false }

theorem State.completeHead_eq {s : State} {e : TxEntry} {rest : List TxEntry} (hq : s.txq = e :: rest) :
    s.completeHead e =
      let u := { s with txq := rest, line := s.line.completed (frameBits (s.frameOf e)) }
      if e.ended then u.placeFrame .release e.tray e.span else u.ownFrame e := by
  unfold State.completeHead
  rw [State.dropHead_eq hq]
  rfl

/-- The completed frame of an entry whose plan, if any, lives on (R31, R69). -/
theorem completedFrame_live {s d : State} {e : TxEntry} {rest : List TxEntry} {c : LineIf}
    (hd : d = { s with txq := rest, line := c }) (hst : s.table.station ≠ .leaving) :
    ∃ t, t = (d.ownFrame e).settle s false false ∧ t.txq = rest ∧ t.line = c ∧ t.trays = s.trays ∧
      t.rep = s.rep ∧ (e.plan = none → t.plans = s.plans) ∧
      ∀ ref sl p, e.plan = some ref → s.slotOf? ref.lane ref.tag = some sl → s.plan ref.lane sl = some p →
        t.plan ref.lane sl = some (if p.state = .tentative then { p with state := .claimed } else p) := by
  have hu := d.ownFrame_eq e
  have hdp : d.plans = s.plans := by rw [hd]
  have hds : d.table = s.table := by rw [hd]
  have hn := fun h : e.plan = none => congrArg State.plans (d.ownFrame_of_none h)
  have hsome := d.ownFrame_isSome e
  have hplan := fun ref sl p h1 (h2 : s.slotOf? ref.lane ref.tag = some sl) (h3 : s.plan ref.lane sl = some p) =>
    State.ownFrame_plan (s := d) (e := e) (ref := ref) (sl := sl) (p := p) h1
      ((State.slotOf?_congr hdp _ _).trans h2) ((congrArg (fun f => f.get ref.lane sl) hdp).trans h3)
  generalize d.ownFrame e = u at hu hn hsome hplan
  have ev : EventEnd u (u.settle s false false) :=
    State.settle_end (.inl (by
      rw [Bool.false_or]
      exact planEnded_of_isSome_eq fun l sl => (hsome l sl).trans
        (congrArg (fun f => (f.get l sl).isSome) hdp)))
      (State.leavesNothing_of_not_leaving (by rw [hu]; exact hds ▸ hst) _ _)
  exact ⟨_, rfl, ev.txq.trans (by rw [hu, hd]), ev.line.trans (by rw [hu, hd]),
    ev.trays.trans (by rw [hu, hd]), ev.rep.trans (by rw [hu, hd]), fun h => ev.plans.trans ((hn h).trans hdp),
    fun ref sl p h1 h2 h3 => (ev.plan _ _).trans (hplan ref sl p h1 h2 h3)⟩

theorem FrameKind.release_of_sameKind {c : FrameKind} (h : c.sameKind .release = true) : c = .release := by
  cases c with
  | release => rfl
  | claim | loaded | occupied | defect => exact absurd h Bool.false_ne_true

theorem hasTwin_release {s : State} {k : Nat} {span : Span}
    (h : ∀ q ∈ s.txq, q.kind = .release → q.tray ≠ k) : s.hasTwin (plainEntry .release k span) = false := by
  refine List.any_eq_false.2 fun q hq hb => ?_
  obtain ⟨h1, h2⟩ := (Bool.and_eq_true _ _).mp hb
  exact h q hq (FrameKind.release_of_sameKind h1) (eq_of_beq h2)

/-- The completed CLAIM of an ended plan is followed by a RELEASE (R62). -/
theorem completedFrame_ended {s d : State} {rest : List TxEntry} {c : LineIf} {k : Nat} {span : Span}
    (hd : d = { s with txq := rest, line := c }) (hst : s.table.station ≠ .leaving) (he : c.enabled = true)
    (hlen : rest.length < 8) (htwin : ∀ q ∈ rest, q.kind = .release → q.tray ≠ k) :
    ∃ t, t = (d.placeFrame .release k span).settle s false false ∧
      t.txq = rest ++ [plainEntry .release k span] ∧ t.trays = s.trays ∧ t.plans = s.plans ∧ t.rep = s.rep := by
  have htx : d.txq = rest := by rw [hd]
  rw [State.placeFrame_of_room (by rw [hd]; exact he) (hasTwin_release (by rw [htx]; exact htwin))
    (by rw [htx]; exact hlen)]
  have hu := d.appendEntry_eq (plainEntry .release k span)
  generalize d.appendEntry (plainEntry .release k span) = u at hu
  have ev : EventEnd u (u.settle s false false) :=
    State.settle_end (State.plansNothing_of_plans (by rw [hu, hd]))
      (State.leavesNothing_of_not_leaving (by rw [hu, hd]; exact hst) _ _)
  exact ⟨_, rfl, ev.txq.trans (by rw [hu, hd]), ev.trays.trans (by rw [hu, hd]),
    ev.plans.trans (by rw [hu, hd]), ev.rep.trans (by rw [hu, hd])⟩

/-- Settles O39: by whether the head is a CLAIM marked as of an ended plan. -/
theorem completedFrameLeavesQueue : Obligations.CompletedFrameLeavesQueue := by
  unfold Obligations.CompletedFrameLeavesQueue
  intro s e rest hr he hq hw hst
  have hexec := exec_frameTxComplete hr (State.head?_of_cons he hq) hw
  rw [State.completeHead_eq hq] at hexec
  refine ⟨fun hen => ?_, fun hen hlen htwin => ?_⟩
  · simp only [hen, Bool.false_eq_true, if_false] at hexec
    obtain ⟨t, ht, h1, h2, h3⟩ := completedFrame_live (e := e) (s := s) (rest := rest)
      (c := s.line.completed (frameBits (s.frameOf e))) rfl hst
    rw [← ht] at hexec
    exact ⟨t, hexec, h1, by rw [h2]; rfl, by rw [h2]; rfl, by rw [h2]; rfl, by rw [h2]; rfl, h3⟩
  · simp only [hen, if_true] at hexec
    obtain ⟨t, ht, h⟩ := completedFrame_ended (s := s) (rest := rest) (k := e.tray) (span := e.span)
      (c := s.line.completed (frameBits (s.frameOf e))) rfl hst he hlen htwin
    rw [← ht] at hexec
    exact ⟨t, hexec, h⟩

/-! ### What the receiver holds over an event -/

/-- The receiver with its buffer and mark as before. -/
def LineIf.SameReceiver (c d : LineIf) : Prop :=
  d.rx = c.rx ∧ d.rxBuf = c.rxBuf ∧ d.rxFault = c.rxFault

/-- The receiver DISCARDING, its buffer empty and no mark held. -/
def LineIf.Deaf (c : LineIf) : Prop := c.rx = .discarding ∧ c.rxBuf = [] ∧ c.rxFault = false

theorem LineIf.SameReceiver.refl (c : LineIf) : c.SameReceiver c := ⟨rfl, rfl, rfl⟩

theorem LineIf.SameReceiver.trans {c d e : LineIf} (h : c.SameReceiver d) (k : d.SameReceiver e) :
    c.SameReceiver e :=
  ⟨k.1.trans h.1, k.2.1.trans h.2.1, k.2.2.trans h.2.2⟩

theorem LineIf.SameReceiver.deaf {c d : LineIf} (h : c.SameReceiver d) (k : c.Deaf) : d.Deaf :=
  ⟨h.1.trans k.1, h.2.1.trans k.2.1, h.2.2.trans k.2.2⟩

theorem PlanWork.sameReceiver {s t : State} (h : PlanWork s t) : s.line.SameReceiver t.line := by
  rcases h.line with e | e <;> rw [e] <;> exact ⟨rfl, rfl, rfl⟩

theorem State.startTransfers_line (s : State) : s.startTransfers.line = s.line :=
  s.startTransfers_keep State.line fun _ _ => rfl

theorem State.settle_sameReceiver (s before : State) (planning test : Bool) (h : s.table.station ≠ .leaving) :
    s.line.SameReceiver (s.settle before planning test).line := by
  obtain ⟨u, w, ev⟩ := s.settle_of_not_leaving before planning test h
  have := w.sameReceiver
  rw [State.startTransfers_line] at this
  rw [ev.line]
  exact this

theorem State.testLeaving_deaf {s : State} (h : s.line.Deaf) : s.testLeaving.line.Deaf := by
  unfold State.testLeaving
  split
  · rw [State.endLeaving_eq]; exact ⟨rfl, rfl, rfl⟩
  · exact h

theorem State.updateFeeds_line (s : State) : s.updateFeeds.line = s.line := rfl

theorem State.finish_deaf {s : State} (h : s.line.Deaf) (before : State) (test : Bool) :
    (s.finish before test).line.Deaf := by
  change (if test || queueEmptied before s.updateFeeds then
    s.updateFeeds.testLeaving else s.updateFeeds).line.Deaf
  have hf : s.updateFeeds.line.Deaf := by rw [State.updateFeeds_line]; exact h
  split
  · exact State.testLeaving_deaf hf
  · exact hf

/-- A receiver DISCARDING stays so to the end of the event, where LEAVING ends too. -/
theorem State.settle_deaf {s : State} (h : s.line.Deaf) (before : State) (planning test : Bool) :
    (s.settle before planning test).line.Deaf := by
  obtain ⟨u, w, -, e⟩ := s.settle_cases before planning test
  rw [e]
  refine State.finish_deaf (w.sameReceiver.deaf ?_) _ _
  rw [State.startTransfers_line]
  exact h

/-! ### A failed attempt (R60) -/

theorem State.withdrawHead_planWork (s : State) (e : TxEntry) : PlanWork s (s.withdrawHead e) := by
  unfold State.withdrawHead
  split
  · exact (s.dropEntry_planWork 0).trans (State.endRef_planWork _ _ _)
  · exact s.dropEntry_planWork 0

theorem State.abandonHead_planWork (s : State) (e : TxEntry) : PlanWork s (s.abandonHead e) := by
  unfold State.abandonHead
  split
  · exact s.withdrawHead_planWork e
  · exact (s.dropEntry_planWork 0).trans (State.reportDropped_planWork _ _)

theorem State.failAttempt_sameReceiver (s : State) (e : TxEntry) :
    s.line.SameReceiver (s.failAttempt e).line ∧ (s.failAttempt e).table = s.table := by
  rcases s.failAttempt_cases e with ⟨-, h⟩ | ⟨-, h⟩ <;> rw [h]
  · exact ⟨⟨rfl, rfl, rfl⟩, rfl⟩
  · exact ⟨(s.abandonHead_planWork e).sameReceiver, (s.abandonHead_planWork e).table⟩

theorem State.endAttempt_sameReceiver (s : State) (e : TxEntry) (sent : Bool) :
    s.line.SameReceiver (s.endAttempt e sent).line ∧ (s.endAttempt e sent).table = s.table := by
  rcases s.endAttempt_cases e sent with ⟨-, -, h⟩ | ⟨-, h⟩ <;> rw [h]
  · exact ⟨(s.dropEntry_planWork 0).sameReceiver, (s.dropEntry_planWork 0).table⟩
  · exact s.failAttempt_sameReceiver e

/-- The head waits again, with one attempt more and its backoff (R60). -/
theorem State.failAttempt_again {s v : State} {e : TxEntry} {rest : List TxEntry} {c : LineIf}
    (hv : v = { s with line := c }) (hq : s.txq = e :: rest) (hn : c.attempt + 1 < 16) :
    ∃ t, t = (v.failAttempt e).settle s false false ∧ t.txq = { e with phase := .waiting } :: rest ∧
      t.line = { c with attempt := c.attempt + 1, backoff := 24 + (s.cw 0 + 1) * 16 + c.attempt * 32 } ∧
      t.plans = s.plans ∧ t.trays = s.trays ∧ t.rep = s.rep ∧ t.loop = s.loop := by
  have hu : v.failAttempt e = { s with
      txq := { e with phase := .waiting } :: rest
      line := { c with attempt := c.attempt + 1, backoff := 24 + (s.cw 0 + 1) * 16 + c.attempt * 32 } } := by
    subst hv
    rcases State.failAttempt_cases { s with line := c } e with ⟨-, h⟩ | ⟨h, -⟩
    · rw [h]
      simp only [State.setTxq, State.modLine, hq, List.modifyHead_cons]
      rfl
    · exact absurd h (Nat.not_le_of_lt hn)
  generalize v.failAttempt e = u at hu
  have ev : EventEnd u (u.settle s false false) :=
    State.settle_end (State.plansNothing_of_plans (by rw [hu]))
      (State.leavesNothing_of_txq_ne (by rw [hu]; exact List.cons_ne_nil _ _) _ _)
  exact ⟨_, rfl, ev.txq.trans (by rw [hu]), ev.line.trans (by rw [hu]), ev.plans.trans (by rw [hu]),
    ev.trays.trans (by rw [hu]), ev.rep.trans (by rw [hu]), ev.loop.trans (by rw [hu])⟩

/-- The sixteenth failure drops a head that is no CLAIM, reported (R60, R63). -/
theorem State.failAttempt_last {s v : State} {e : TxEntry} {rest : List TxEntry} {c : LineIf}
    (hv : v = { s with line := c }) (hq : s.txq = e :: rest) (hn : 16 ≤ c.attempt + 1)
    (hc : e.kind.isClaim = false) (hst : s.table.station ≠ .leaving) :
    ∃ t, t = (v.failAttempt e).settle s false false ∧ t.txq = rest ∧ t.line.attempt = 0 ∧ t.line.backoff = 0 ∧
      t.rep = (s.queueReport (.lineDropped e.kind.code e.tray)).rep ∧ t.plans = s.plans ∧
      t.trays = s.trays ∧ t.loop = s.loop := by
  have hu : v.failAttempt e = { s with
      txq := rest, line := c.newHead, rep := (s.queueReport (.lineDropped e.kind.code e.tray)).rep } := by
    subst hv
    rcases State.failAttempt_cases { s with line := c } e with ⟨h, -⟩ | ⟨-, h⟩
    · exact absurd h (Nat.not_lt_of_le hn)
    · rw [h, State.abandonHead_of_other hc, State.reportDropped_eq,
        State.dropHead_eq (s := { s with line := c }) hq]
      rfl
  generalize v.failAttempt e = u at hu
  have ev : EventEnd u (u.settle s false false) :=
    State.settle_end (State.plansNothing_of_plans (by rw [hu]))
      (State.leavesNothing_of_not_leaving (by rw [hu]; exact hst) _ _)
  exact ⟨_, rfl, ev.txq.trans (by rw [hu]), by rw [ev.line, hu]; rfl, by rw [ev.line, hu]; rfl,
    ev.rep.trans (by rw [hu]), ev.plans.trans (by rw [hu]), ev.trays.trans (by rw [hu]),
    ev.loop.trans (by rw [hu])⟩

/-- A command by which the head's attempt fails: a bit that reads back otherwise, but for a collision of a CLAIM
of an ended plan, or a line held. -/
def State.FailsBy (s : State) (e : TxEntry) (c : Instr) : Prop :=
  (∃ bit sent, c = .attemptCollision bit ∧ e.phase = .sending ∧ (frameBits (s.frameOf e))[bit]? = some sent ∧
    (e.ended = true → sent = false)) ∨ (c = .lineHeld ∧ e.phase = .waiting)

theorem State.readBack_attempt (s : State) (e : TxEntry) (bit : Nat) (sent : Bool) :
    (s.readBack e bit sent).line.attempt = s.line.attempt := by
  cases sent <;> rfl

theorem exec_fails {s : State} {e : TxEntry} {c : Instr} (hr : s.pins.rstLow = false) (hh : s.head? = some e)
    (hc : s.FailsBy e c) :
    ∃ v d, v = { s with line := d } ∧ exec c s = .next ((v.failAttempt e).settle s false false) ∧
      d.attempt = s.line.attempt ∧ (c = .lineHeld → d.holdCount = 0 ∧ d.rx = s.line.rx) := by
  rcases hc with ⟨bit, sent, rfl, hw, hb, hen⟩ | ⟨rfl, hw⟩
  · refine ⟨_, _, s.readBack_eq e bit sent, ?_, s.readBack_attempt e bit sent, nofun⟩
    rw [exec_attemptCollision hr hh hw hb]
    rcases State.endAttempt_cases (s.readBack e bit sent) e sent with ⟨h1, h2, -⟩ | ⟨-, h⟩
    · exact absurd ((hen h2).symm.trans h1) Bool.false_ne_true
    · rw [h]
  · exact ⟨_, _, rfl, exec_lineHeld hr hh hw, rfl, fun _ => ⟨rfl, rfl⟩⟩

/-- A collision of a CLAIM of an ended plan removes it alone (R56). -/
theorem collision_of_ended {s v : State} {e : TxEntry} {rest : List TxEntry} {c : LineIf}
    (hv : v = { s with line := c }) (hq : s.txq = e :: rest) (hst : s.table.station ≠ .leaving)
    (hen : e.ended = true) :
    ∃ t, t = (v.endAttempt e true).settle s false false ∧ t.txq = rest ∧ t.line.attempt = 0 ∧
      t.line.backoff = 0 ∧ t.plans = s.plans ∧ t.trays = s.trays ∧ t.rep = s.rep := by
  have hu : v.endAttempt e true = { s with txq := rest, line := c.newHead } := by
    subst hv
    rcases State.endAttempt_cases { s with line := c } e true with ⟨-, -, h⟩ | ⟨h, -⟩
    · rw [h, State.dropHead_eq (s := { s with line := c }) hq]
    · simp [hen] at h
  generalize v.endAttempt e true = u at hu
  have ev : EventEnd u (u.settle s false false) :=
    State.settle_end (State.plansNothing_of_plans (by rw [hu]))
      (State.leavesNothing_of_not_leaving (by rw [hu]; exact hst) _ _)
  exact ⟨_, rfl, ev.txq.trans (by rw [hu]), by rw [ev.line, hu]; rfl, by rw [ev.line, hu]; rfl,
    ev.plans.trans (by rw [hu]), ev.trays.trans (by rw [hu]), ev.rep.trans (by rw [hu])⟩

/-- Settles O38: every failure comes to `failAttempt` with the line alone changed. -/
theorem failedAttemptBacksOff : Obligations.FailedAttemptBacksOff := by
  unfold Obligations.FailedAttemptBacksOff
  intro s e rest hr he hq bits fails
  have hh := State.head?_of_cons he hq
  refine ⟨fun c hc hn => ?_, fun c hc hn hk hst => ?_, fun bit sent hw hb => ?_, fun hw => exec_backoffExpired hr hh hw⟩
  · obtain ⟨v, d, hv, hx, ha, hl⟩ := exec_fails hr hh hc
    obtain ⟨t, ht, h1, h2, h3, h4, h5, h6⟩ := State.failAttempt_again hv hq (by rw [ha]; exact hn)
    rw [← ht] at hx
    rw [ha] at h2
    exact ⟨t, hx, h1, by rw [h2], by rw [h2], fun e => by rw [h2]; exact hl e, h3, h4, h5, h6⟩
  · obtain ⟨v, d, hv, hx, ha, -⟩ := exec_fails hr hh hc
    obtain ⟨t, ht, h1, h2, h3, h4, h5, h6, h7⟩ := State.failAttempt_last hv hq (by rw [ha]; exact hn) hk hst
    rw [← ht] at hx
    exact ⟨t, hx, h1, h2, h3, h4, h5, h6, h7⟩
  · have hx := exec_attemptCollision hr hh hw hb
    refine ⟨_, hx, fun hst hs => ?_, fun hs => ?_⟩
    · subst hs
      obtain ⟨h1, h2⟩ := State.endAttempt_sameReceiver (s.readBack e bit true) e true
      have h3 := h1.trans (State.settle_sameReceiver _ s false false (by rw [h2]; exact hst))
      refine ⟨h3.1, h3.2.1.trans ?_, h3.2.2.trans ?_, fun hen => ?_⟩
      · simp only [State.readBack, if_true, State.modLine, bytesRead, isStopBit, beq_iff_eq]
      · simp only [State.readBack, if_true, State.modLine, isStopBit]
        rfl
      · obtain ⟨t, ht, h⟩ := collision_of_ended (s.readBack_eq e bit true) hq hst hen
        rw [← ht]
        exact h
    · subst hs
      obtain ⟨h1, -⟩ := State.endAttempt_sameReceiver (s.readBack e bit false) e false
      exact State.settle_deaf (h1.deaf ⟨rfl, rfl, rfl⟩) s false false

end Sys2Proof.Machine
end

section
/-! SUPPORT. Events of one lane: what an event that changes one lane and the reports leaves at its end (R90, R91,
R99). -/

namespace Sys2Proof.Machine

/-! ### The end of an event at which no transfer begins -/

theorem State.updateFeeds_lane (s : State) (l : Lane) :
    s.updateFeeds.lane l = { s.lane l with feed := s.feedRuns l } := by
  have hf : ∀ (u : State) (m k : Lane), (u.updateFeed m).feedRuns k = u.feedRuns k := by
    intro u m k
    by_cases h : k = m
    · subst h
      simp only [State.feedRuns, State.updateFeed, State.modLane_lane_self]
      rfl
    · simp only [State.feedRuns, State.updateFeed, State.modLane_lane_ne _ _ h]
      rfl
  cases l with
  | l0 => rfl
  | l1 =>
    change { (s.updateFeed .l0).lane .l1 with feed := (s.updateFeed .l0).feedRuns .l1 } = _
    rw [hf]
    rfl

theorem State.startTransfers_lane {s : State} {l : Lane} (h : s.NoTransfer l) :
    s.startTransfers.lane l = s.lane l := by
  cases l with
  | l0 =>
    refine (State.startTransfer_lane_ne (s.startTransfer .l0) (l := .l1) (by decide)).trans ?_
    rw [State.startTransfer_eq_self ((s.noTransfer_iff .l0).1 h)]
  | l1 =>
    have he := State.startTransfer_lane_ne s (l := .l0) (m := .l1) (by decide)
    have hn : (s.startTransfer .l0).NoTransfer .l1 :=
      h.of_eq (by rw [State.startTransfer_eq]; rfl) (congrArg _ he) (congrArg _ he)
    exact (congrArg (State.lane · .l1) (State.startTransfer_eq_self ((State.noTransfer_iff _ .l1).1 hn))).trans he

theorem State.feedRuns_congr {s t : State} {m : Lane} (ho : t.online = s.online) (hl : t.lane m = s.lane m) :
    t.feedRuns m = s.feedRuns m := by
  unfold State.feedRuns
  rw [ho, hl]

/-- Where an event plans nothing and does not end LEAVING, its end leaves the lanes as transfers and feeds. -/
theorem State.settle_lane_eq {s before : State} {planning test : Bool} (hp : s.PlansNothing before planning)
    (hq : s.LeavesNothing before test) (l : Lane) :
    (s.settle before planning test).lane l = s.startTransfers.updateFeeds.lane l := by
  have hq' := hq
  unfold State.LeavesNothing at hq'
  rw [← State.startTransfers_leavingDone, ← State.startTransfers_queueEmptied] at hq'
  rw [State.settle_of_plansNothing hp, State.finish_eq _ _ _ hq']
  exact congrArg (Two.get · l) (State.retakeAspects_lanes _)

/-- Where no transfer may begin the end of an event sets the lane's feed and changes nothing else of it. -/
theorem State.settle_lane {s before : State} {planning test : Bool} (hp : s.PlansNothing before planning)
    (hq : s.LeavesNothing before test) {l : Lane} (ht : s.NoTransfer l) :
    (s.settle before planning test).lane l = { s.lane l with feed := s.feedRuns l } := by
  have hl := State.startTransfers_lane ht
  rw [State.settle_lane_eq hp hq, State.updateFeeds_lane, hl,
    State.feedRuns_congr (s.startTransfers_keep State.online fun _ _ => rfl) hl]

/-- A transfer that begins leaves every record whose tag no HOLDING record has. -/
theorem State.startTransfer_mem {s : State} {l m : Lane} {q : Parcel} (hq : q ∈ (s.lane m).parcels)
    (hn : ∀ p ∈ (s.lane m).parcels, p.tag = q.tag → p.place ≠ .holding) :
    q ∈ ((s.startTransfer l).lane m).parcels := by
  unfold State.startTransfer
  split
  · rename_i r hr
    by_cases h : m = l
    · subst h
      have hf : (s.lane m).parcels.find? (fun r => r.place == .holding && r.named.isNone) = some r := by
        unfold State.transferReady? at hr
        dsimp only at hr
        split at hr
        · exact hr
        · cases hr
      have hpl : r.place = .holding := by
        have := List.find?_some hf
        simp only [Bool.and_eq_true, beq_iff_eq] at this
        exact this.1
      have hne : q.tag ≠ r.tag := fun e => hn r (List.mem_of_find?_eq_some hf) e.symm hpl
      rw [State.modLane_lane_self]
      exact List.mem_map.2 ⟨q, hq, if_neg hne⟩
    · rw [State.modLane_lane_ne _ _ h]
      exact hq
  · exact hq

theorem State.startTransfer_ne_holding {s : State} {l m : Lane} {t : Tag}
    (hn : ∀ p ∈ (s.lane m).parcels, p.tag = t → p.place ≠ .holding) :
    ∀ p ∈ ((s.startTransfer l).lane m).parcels, p.tag = t → p.place ≠ .holding := by
  obtain ⟨f, e, hf⟩ := (s.startTransfer_moved l m).parcels
  intro p hp ht
  rw [e] at hp
  obtain ⟨r, hr, rfl⟩ := List.mem_map.1 hp
  rcases hf r with h | h
  · rw [h] at ht ⊢
    exact hn r hr ht
  · rw [h]
    exact nofun

/-- The end of an event leaves every record whose tag no HOLDING record has. -/
theorem State.settle_mem {s before : State} {planning test : Bool} (hp : s.PlansNothing before planning)
    (hq : s.LeavesNothing before test) {l : Lane} {q : Parcel} (hm : q ∈ (s.lane l).parcels)
    (hn : ∀ p ∈ (s.lane l).parcels, p.tag = q.tag → p.place ≠ .holding) :
    q ∈ ((s.settle before planning test).lane l).parcels := by
  rw [State.settle_lane_eq hp hq, State.updateFeeds_lane]
  exact State.startTransfer_mem (State.startTransfer_mem hm hn) (State.startTransfer_ne_holding hn)

/-! ### Changes of one lane -/

/-- The lane and the reports alone change. -/
def LaneChange (l : Lane) (s u : State) : Prop :=
  u = { s with lanes := s.lanes.set l (u.lane l), rep := u.rep }

theorem LaneChange.eq {l : Lane} {s u : State} (h : LaneChange l s u) :
    u = { s with lanes := s.lanes.set l (u.lane l), rep := u.rep } := h

theorem LaneChange.refl (l : Lane) (s : State) : LaneChange l s s := by
  unfold LaneChange State.lane
  rw [Two.set_get]

theorem Two.set_set {α : Type} (t : Two α) (l : Lane) (a b : α) : (t.set l a).set l b = t.set l b := by
  cases l <;> rfl

theorem LaneChange.of_eq {l : Lane} {s u : State} {d : LaneCtl} {r : ReportPort}
    (h : u = { s with lanes := s.lanes.set l d, rep := r }) : LaneChange l s u := by
  subst h
  unfold LaneChange State.lane
  rw [Two.get_set_self]

theorem LaneChange.trans {l : Lane} {s u v : State} (h : LaneChange l s u) (k : LaneChange l u v) :
    LaneChange l s v := by
  refine LaneChange.of_eq (d := v.lane l) (r := v.rep) ?_
  unfold LaneChange at h k
  have hl : u.lanes.set l (v.lane l) = s.lanes.set l (v.lane l) := by
    rw [congrArg State.lanes h, Two.set_set]
  rw [hl] at k
  refine k.trans ?_
  rw [h]

theorem State.modLane_laneChange (s : State) (l : Lane) (f : LaneCtl → LaneCtl) :
    LaneChange l s (s.modLane l f) := .of_eq rfl

theorem State.queueReport_laneChange (s : State) (l : Lane) (r : Report) : LaneChange l s (s.queueReport r) :=
  .of_eq (d := s.lane l) (r := (s.queueReport r).rep) (by rw [State.lane, Two.set_get]; rfl)

theorem State.rejectAll_laneChange (s : State) (l : Lane) (reason : RejectReason) (tags : List Tag) :
    LaneChange l s (s.rejectAll l reason tags) := by
  unfold State.rejectAll
  induction tags generalizing s with
  | nil => exact .refl l s
  | cons t ts ih => exact (s.queueReport_laneChange l _).trans (ih _)

theorem State.enterLane_laneChange (s : State) (l : Lane) {st : LaneState} (h : st ≠ .running)
    (reason : LaneReason) : LaneChange l s (s.enterLane l st reason) := by
  rw [State.enterLane_of_ne_running _ _ h]
  exact (s.modLane_laneChange l _).trans (State.queueReport_laneChange _ l _)

theorem State.takeBlock_laneChange (s : State) (l : Lane) (reason : BlockReason) (tags rejected : List Tag) :
    LaneChange l s (s.takeBlock l reason tags rejected) := by
  have h := (s.modLane_laneChange l fun c => c.name reason tags).trans
    (State.rejectAll_laneChange _ l reason.toReject rejected)
  unfold State.takeBlock
  dsimp only
  split
  · exact h.trans (State.enterLane_laneChange _ l (by decide) _)
  · exact h.trans (State.enterLane_laneChange _ l (by decide) _)
  · exact h.trans ((State.modLane_laneChange _ l _).trans (State.queueReport_laneChange _ l _))
  · exact h.trans (State.modLane_laneChange _ l _)
  · exact h

section
variable {l : Lane} {s u : State}

theorem LaneChange.lane_ne (h : LaneChange l s u) {m : Lane} (hm : m ≠ l) : u.lane m = s.lane m := by
  rw [State.lane, congrArg State.lanes h.eq]
  exact Two.get_set_ne _ _ hm

theorem LaneChange.table (h : LaneChange l s u) : u.table = s.table :=
  (congrArg State.table h.eq :)
theorem LaneChange.plans (h : LaneChange l s u) : u.plans = s.plans :=
  (congrArg State.plans h.eq :)
theorem LaneChange.txq (h : LaneChange l s u) : u.txq = s.txq :=
  (congrArg State.txq h.eq :)
theorem LaneChange.trays (h : LaneChange l s u) : u.trays = s.trays :=
  (congrArg State.trays h.eq :)
theorem LaneChange.loop (h : LaneChange l s u) : u.loop = s.loop :=
  (congrArg State.loop h.eq :)
theorem LaneChange.pins (h : LaneChange l s u) : u.pins = s.pins :=
  (congrArg State.pins h.eq :)

theorem LaneChange.online (h : LaneChange l s u) : u.online = s.online := by
  rw [State.online, h.table]; rfl

/-- The end of an event that changed one lane and the reports. -/
theorem LaneChange.eventEnd (h : LaneChange l s u) : EventEnd u (u.settle s false false) :=
  State.settle_end (State.plansNothing_of_plans h.plans) (State.leavesNothing_of_txq h.txq)

theorem LaneChange.kept (h : LaneChange l s u) :
    let t := u.settle s false false
    t.trays = s.trays ∧ t.plans = s.plans ∧ t.txq = s.txq ∧ t.loop = s.loop :=
  ⟨h.eventEnd.trays.trans h.trays, h.eventEnd.plans.trans h.plans, h.eventEnd.txq.trans h.txq,
    h.eventEnd.loop.trans h.loop⟩

/-- On such an event the other lane's transfers wait as before. -/
theorem LaneChange.noTransfer_ne (h : LaneChange l s u) {m : Lane} (hm : m ≠ l) (hn : s.NoTransfer m) :
    u.NoTransfer m := hn.of_eq h.online (congrArg _ (h.lane_ne hm)) (congrArg _ (h.lane_ne hm))

theorem LaneChange.settle_lane (h : LaneChange l s u) {m : Lane} (hm : u.NoTransfer m) :
    (u.settle s false false).lane m = { u.lane m with feed := u.feedRuns m } :=
  State.settle_lane (State.plansNothing_of_plans h.plans) (State.leavesNothing_of_txq h.txq) hm

theorem State.feed_of_atRest {s : State} (h : s.atRest = true) (m : Lane) : (s.lane m).feed = s.feedRuns m := by
  have := (s.atRest_iff.1 h).1 m
  simp only [State.laneAtRest, Bool.and_eq_true, beq_iff_eq] at this
  exact this.1.2

/-- The other lane of a state at rest stays as it is. -/
theorem LaneChange.settle_lane_ne (h : LaneChange l s u) (hr : s.atRest = true) {m : Lane} (hm : m ≠ l) :
    (u.settle s false false).lane m = s.lane m := by
  rw [h.settle_lane (h.noTransfer_ne hm (State.noTransfer_of_atRest hr m)), h.lane_ne hm,
    State.feedRuns_congr h.online (h.lane_ne hm), ← State.feed_of_atRest hr m]

end

/-- No transfer may begin where none could before: no record new to the hold place, none gone from the launch
place (R91). -/
theorem State.NoTransfer.of_places {s t : State} {l : Lane} (h : s.NoTransfer l) (ho : t.online = s.online)
    (hs : ((t.lane l).state = .running ∨ (t.lane l).state = .paused ∨ (t.lane l).state = .blocked) →
      ((s.lane l).state = .running ∨ (s.lane l).state = .paused ∨ (s.lane l).state = .blocked))
    (hh : ∀ q ∈ (t.lane l).parcels, q.place = .holding → q.named = none →
      ∃ p ∈ (s.lane l).parcels, p.place = .holding ∧ p.named = none)
    (ht : (s.lane l).launchTaken = true → (t.lane l).launchTaken = true) : t.NoTransfer l := by
  rw [State.noTransfer_iff] at h ⊢
  rw [State.transferReady?] at h ⊢
  split
  · rename_i hc
    simp only [Bool.and_eq_true, Bool.not_eq_true', Bool.or_eq_true, beq_iff_eq, or_assoc] at hc
    have hst : ((s.lane l).state == .running || (s.lane l).state == .paused || (s.lane l).state == .blocked) =
        true := by
      rcases hs hc.1.2 with e | e | e <;> rw [e] <;> rfl
    have htk : (s.lane l).launchTaken = false := by
      cases e : (s.lane l).launchTaken
      · rfl
      · exact absurd (hc.2.symm.trans (ht e)) Bool.false_ne_true
    have hnone : (s.lane l).parcels.find? (fun r => r.place == .holding && r.named.isNone) = none := by
      rw [if_pos (by rw [← ho, hc.1.1, hst, htk]; rfl)] at h
      exact h
    rw [List.find?_eq_none] at hnone ⊢
    intro q hq hb
    simp only [Bool.and_eq_true, beq_iff_eq, Option.isNone_iff_eq_none] at hb
    obtain ⟨p, hp, h1, h2⟩ := hh q hq hb.1 hb.2
    exact hnone p hp (by simp [h1, h2])
  · rfl

/-! ### A block (R99) -/

theorem State.rejectAll_lane (s : State) (l m : Lane) (reason : RejectReason) (tags : List Tag) :
    (s.rejectAll l reason tags).lane m = s.lane m := by
  rw [State.rejectAll_eq]; rfl

/-- The reports of a block: REJECTED for each parcel, then LANE (log 9). -/
def State.blockReports (s : State) (l : Lane) (reason : BlockReason) (rejected : List Tag) : ReportPort :=
  ((s.rejectAll l reason.toReject rejected).queueReport (.lane l .blocked reason.toLane)).rep

theorem State.rejectAll_rep_congr {s t : State} (h : t.rep = s.rep) (l : Lane) (reason : RejectReason)
    (tags : List Tag) : (t.rejectAll l reason tags).rep = (s.rejectAll l reason tags).rep := by
  unfold State.rejectAll
  induction tags generalizing s t with
  | nil => exact h
  | cons g gs ih => exact ih (State.queueReport_rep_congr h _)

/-- A block of a lane RUNNING or PAUSED. -/
theorem State.takeBlock_running (s : State) (l : Lane) (reason : BlockReason) (tags rejected : List Tag)
    (h : (s.lane l).state = .running ∨ (s.lane l).state = .paused) :
    s.takeBlock l reason tags rejected = { s with
      lanes := s.lanes.set l { (s.lane l).name reason tags with
        state := .blocked, reason := reason.toLane, removal := true }
      rep := s.blockReports l reason rejected } := by
  have hc := s.takeBlock_laneChange l reason tags rejected
  have e : s.takeBlock l reason tags rejected =
      ((s.modLane l fun c => c.name reason tags).rejectAll l reason.toReject rejected).enterLane l .blocked
        reason.toLane := by
    rcases h with h | h <;> simp only [State.takeBlock, h]
  have hl : (s.takeBlock l reason tags rejected).lane l = { (s.lane l).name reason tags with
      state := .blocked, reason := reason.toLane, removal := true } := by
    rw [e, State.enterLane_lane_self, State.rejectAll_lane, State.modLane_lane_self]
    rfl
  have hr : (s.takeBlock l reason tags rejected).rep = s.blockReports l reason rejected := by
    rw [e, State.enterLane_of_ne_running _ _ (by decide)]
    refine State.queueReport_rep_congr ?_ _
    exact State.rejectAll_rep_congr (s := s) (t := s.modLane l fun c => c.name reason tags) rfl _ _ _
  rw [← hl, ← hr]
  exact hc

/-- A block of a lane BLOCKED already: the state and its reason stay. -/
theorem State.takeBlock_blocked (s : State) (l : Lane) (reason : BlockReason) (tags rejected : List Tag)
    (h : (s.lane l).state = .blocked) :
    s.takeBlock l reason tags rejected = { s with
      lanes := s.lanes.set l { (s.lane l).name reason tags with removal := true }
      rep := s.blockReports l reason rejected } := by
  have hc := s.takeBlock_laneChange l reason tags rejected
  have e : s.takeBlock l reason tags rejected =
      (((s.modLane l fun c => c.name reason tags).rejectAll l reason.toReject rejected).modLane l fun c =>
        { c with removal := true }).queueReport (.lane l .blocked reason.toLane) := by
    simp only [State.takeBlock, h]
  have hl : (s.takeBlock l reason tags rejected).lane l = { (s.lane l).name reason tags with removal := true } := by
    have hq : ∀ (v : State) (r : Report), (v.queueReport r).lane l = v.lane l := fun _ _ => rfl
    rw [e, hq, State.modLane_lane_self, State.rejectAll_lane, State.modLane_lane_self]
  have hr : (s.takeBlock l reason tags rejected).rep = s.blockReports l reason rejected := by
    rw [e]
    refine State.queueReport_rep_congr ?_ _
    exact State.rejectAll_rep_congr (s := s) (t := s.modLane l fun c => c.name reason tags) rfl _ _ _
  rw [← hl, ← hr]
  exact hc

/-- What a block leaves of a lane RUNNING, PAUSED or BLOCKED. -/
theorem State.takeBlock_lane (s : State) (l : Lane) (reason : BlockReason) (tags rejected : List Tag)
    (h : (s.lane l).state = .running ∨ (s.lane l).state = .paused ∨ (s.lane l).state = .blocked) :
    (s.takeBlock l reason tags rejected).lane l = { (s.lane l).name reason tags with
      state := .blocked, removal := true
      reason := if (s.lane l).state = .blocked then (s.lane l).reason else reason.toLane } ∧
    (s.takeBlock l reason tags rejected).rep = s.blockReports l reason rejected := by
  by_cases hb : (s.lane l).state = .blocked
  · rw [if_pos hb, State.takeBlock_blocked _ _ _ _ _ hb]
    refine ⟨(Two.get_set_self _ _ _).trans ?_, rfl⟩
    rw [LaneCtl.name, hb]
  · rw [if_neg hb, State.takeBlock_running _ _ _ _ _ (by tauto)]
    exact ⟨Two.get_set_self _ _ _, rfl⟩

theorem LaneCtl.name_launchTaken (c : LaneCtl) (reason : BlockReason) (tags : List Tag) :
    (c.name reason tags).launchTaken = c.launchTaken := by
  unfold LaneCtl.launchTaken LaneCtl.name
  rw [List.any_map]
  refine congrArg (List.any c.parcels) (funext fun r => ?_)
  dsimp only [Function.comp]
  split <;> rfl

theorem LaneCtl.name_holding {c : LaneCtl} {reason : BlockReason} {tags : List Tag} {q : Parcel}
    (hq : q ∈ (c.name reason tags).parcels) (hp : q.place = .holding) (hn : q.named = none) :
    ∃ p ∈ c.parcels, p.place = .holding ∧ p.named = none := by
  obtain ⟨p, hm, e⟩ := List.mem_map.1 hq
  refine ⟨p, hm, ?_⟩
  split at e
  · rw [← e] at hn
    cases hn
  · rw [e]
    exact ⟨hp, hn⟩

/-- A block begins no transfer where none could begin. -/
theorem State.takeBlock_noTransfer {s : State} {l : Lane} (hn : s.NoTransfer l)
    (h : (s.lane l).state = .running ∨ (s.lane l).state = .paused ∨ (s.lane l).state = .blocked)
    (reason : BlockReason) (tags rejected : List Tag) : (s.takeBlock l reason tags rejected).NoTransfer l := by
  have hl := (s.takeBlock_lane l reason tags rejected h).1
  refine hn.of_places (s.takeBlock_laneChange l reason tags rejected).online (fun _ => h) (fun q hq hp hm => ?_) fun ht => ?_
  · rw [hl] at hq
    exact LaneCtl.name_holding (reason := reason) (tags := tags) hq hp hm
  · rw [hl]
    exact ((s.lane l).name_launchTaken reason tags).trans ht

end Sys2Proof.Machine
end

section
/-! PROOF. The entry eye's blocked edge (R85, R86, R99). -/

open Sys2Proof Sys2Proof.Machine

namespace Sys2Proof.Machine

theorem exec_entryEyeBlocked {s : State} {l : Lane} (hr : s.pins.rstLow = false)
    (he : s.pins.entryEye.get l = false) :
    exec (.entryEyeBlocked l) s = .next (if s.takesEntry l then
      ((s.setEntryEye l true).entryEdge l).settle (s.setEntryEye l true) false false
      else s.setEntryEye l true) := by
  change execEntryEyeBlocked l s = _
  unfold execEntryEyeBlocked
  refine (State.unlessHeld_of_rstHigh (s := s.setEntryEye l true) hr _).trans ?_
  simp only [he, Bool.false_eq_true, if_false]
  rfl

/-- The parcel before the edge that a TOUCHING block names: the gap test's, while it is QUEUED (R86). -/
def State.touched (s : State) (l : Lane) : List Tag :=
  match (s.lane l).gapTest with
  | some t =>
    match (s.lane l).parcel? t with
    | some r => if r.place = .queued then [t] else []
    | none => []
  | none => []

theorem State.touched_of_gapTest {s : State} {l : Lane} {g : Tag} (h : (s.lane l).gapTest = some g) :
    s.touched l = if ((s.lane l).parcel? g).map Parcel.place = some .queued then [g] else [] := by
  simp only [State.touched, h]
  cases (s.lane l).parcel? g with
  | none => simp
  | some r => simp

theorem State.touchingBlock_eq (s : State) (l : Lane) :
    s.touchingBlock l = (s.modLane l fun c => if s.hasRoom l then c.create else c.takeTag).takeBlock l .touching
      (s.touched l ++ if s.hasRoom l then [(s.lane l).tagCounter] else [])
      (s.touched l ++ [(s.lane l).tagCounter]) := rfl

/-- What an edge leaves of the lane before any block: the tag taken, and the record made where there is room. -/
def LaneCtl.entered (c : LaneCtl) (room : Bool) : LaneCtl :=
  { c with
    parcels := c.parcels ++ if room then [Parcel.fresh c.tagCounter] else []
    tagCounter := c.tagCounter + 1 }

theorem LaneCtl.entered_eq (c : LaneCtl) (room : Bool) :
    (if room then c.create else c.takeTag) = c.entered room := by
  cases room
  · simp [LaneCtl.entered, LaneCtl.takeTag]
  · rfl

/-- A record just made is neither in the hold place nor in the launch place. -/
theorem LaneCtl.entered_places (c : LaneCtl) (room : Bool) :
    (∀ q ∈ (c.entered room).parcels, q.place = .holding → q.named = none →
      ∃ p ∈ c.parcels, p.place = .holding ∧ p.named = none) ∧
    (c.entered room).launchTaken = c.launchTaken := by
  constructor
  · intro q hq hp hn
    rcases List.mem_append.1 hq with h | h
    · exact ⟨q, h, hp, hn⟩
    · cases room
      · exact absurd h List.not_mem_nil
      · obtain rfl := List.mem_singleton.1 h
        cases hp
  · unfold LaneCtl.launchTaken LaneCtl.entered
    cases room <;> simp [Parcel.fresh]

theorem takesEntry_iff {s : State} {l : Lane} (h : s.takesEntry l = true) :
    s.online = true ∧ ((s.lane l).state = .running ∨ (s.lane l).state = .paused) := by
  simpa [State.takesEntry] using h

/-- No transfer begins by a record made (R91). -/
theorem State.entered_noTransfer {s : State} {l : Lane} (hn : s.NoTransfer l)
    (hs : (s.lane l).state = .running ∨ (s.lane l).state = .paused ∨ (s.lane l).state = .blocked) (room : Bool) :
    (s.modLane l fun c => c.entered room).NoTransfer l := by
  obtain ⟨h1, h2⟩ := (s.lane l).entered_places room
  refine hn.of_places rfl (fun _ => hs) ?_ ?_
  · rw [State.modLane_lane_self]
    exact h1
  · rw [State.modLane_lane_self, h2]
    exact id

/-- An edge taken with a block: OVERFILL without room, or TOUCHING, all that it leaves. -/
theorem entered_block {s : State} {l : Lane} (hrest : s.atRest = true) (ht : s.takesEntry l = true) (room : Bool)
    (reason : BlockReason) (tags rejected : List Tag) :
    let t := ((s.modLane l fun c => c.entered room).takeBlock l reason tags rejected).settle s false false
    t.lane l = { ((s.lane l).entered room).name reason tags with
      state := .blocked, reason := reason.toLane, removal := true, feed := false } ∧
    t.rep = s.blockReports l reason rejected ∧ t.trays = s.trays ∧ t.plans = s.plans ∧ t.txq = s.txq ∧
    t.loop = s.loop := by
  obtain ⟨-, hst⟩ := takesEntry_iff ht
  have hst3 : (s.lane l).state = .running ∨ (s.lane l).state = .paused ∨ (s.lane l).state = .blocked := by tauto
  have hn := State.entered_noTransfer (State.noTransfer_of_atRest hrest l) hst3 room
  have hl : (s.modLane l fun c => c.entered room).lane l = (s.lane l).entered room := State.modLane_lane_self ..
  have hc := (s.modLane_laneChange l fun c => c.entered room).trans
    (State.takeBlock_laneChange _ l reason tags rejected)
  obtain ⟨hb, hrep⟩ := (s.modLane l fun c => c.entered room).takeBlock_lane l reason tags rejected
    (by rw [hl]; exact hst3)
  have hnt := State.takeBlock_noTransfer hn (by rw [hl]; exact hst3) reason tags rejected
  have hlane := hc.settle_lane hnt
  have hk := hc.kept
  have hr := hc.eventEnd.rep
  refine ⟨?_, hr.trans (hrep.trans ?_), hk⟩
  · have hfeed : ((s.modLane l fun c => c.entered room).takeBlock l reason tags rejected).feedRuns l = false := by
      simp [State.feedRuns, hb]
    have hne : (s.lane l).state ≠ .blocked := by rcases hst with h | h <;> rw [h] <;> decide
    rw [hlane, hfeed, hb, hl, if_neg (by exact hne)]
  · exact State.queueReport_rep_congr (State.rejectAll_rep_congr (s := s)
      (t := s.modLane l fun c => c.entered room) rfl _ _ _) _

/-- An edge taken with room: the record joins the tail. -/
theorem entered_alone {s : State} {l : Lane} (hrest : s.atRest = true) (ht : s.takesEntry l = true) :
    let u := s.modLane l fun c => { c.create with measure := 0, gapTest := none }
    let t := u.settle s false false
    t.lanes = u.lanes ∧ t.pins = s.pins ∧ t.rep = s.rep ∧ t.trays = s.trays ∧ t.plans = s.plans ∧
      t.txq = s.txq ∧ t.loop = s.loop := by
  intro u t
  obtain ⟨-, hst⟩ := takesEntry_iff ht
  have hc : LaneChange l s u := s.modLane_laneChange l _
  have hl : u.lane l = { (s.lane l).create with measure := 0, gapTest := none } := State.modLane_lane_self ..
  have hn : ∀ m, u.NoTransfer m := fun m => by
    by_cases e : m = l
    · subst e
      exact (State.entered_noTransfer (State.noTransfer_of_atRest hrest m) (by tauto) true).of_eq rfl
        (by rw [hl, State.modLane_lane_self]; rfl) (by rw [hl, State.modLane_lane_self]; rfl)
    · exact hc.noTransfer_ne e (State.noTransfer_of_atRest hrest m)
  have hf : ∀ m, (u.lane m).feed = u.feedRuns m := fun m => by
    by_cases e : m = l
    · subst e
      have h := State.feed_of_atRest hrest m
      rw [State.feedRuns, hl]
      refine h.trans ?_
      have h1 : (Place.measuring == Place.holding) = false := rfl
      have h2 : (Place.measuring == Place.transferring) = false := rfl
      have h3 : (Place.measuring == Place.queued) = false := rfl
      simp [State.feedRuns, hc.online, LaneCtl.create, LaneCtl.holdTaken, Parcel.fresh, h1, h2, h3]
    · rw [hc.lane_ne e, State.feedRuns_congr hc.online (hc.lane_ne e)]
      exact State.feed_of_atRest hrest m
  exact ⟨State.settle_lanes (State.plansNothing_of_plans hc.plans) (State.leavesNothing_of_txq hc.txq) hn hf,
    hc.eventEnd.pins.trans hc.pins, hc.eventEnd.rep, hc.kept⟩

theorem mem_named_iff (held room : Prop) [Decidable held] [Decidable room] (g n t : Tag) :
    (((if held then [g] else []) ++ if room then [n] else []).contains t = true) ↔
      (held ∧ t = g) ∨ (room ∧ t = n) := by
  by_cases h1 : held <;> by_cases h2 : room <;> simp [h1, h2]

/-- Settles O41: by whether the edge is taken, touches and finds room. -/
theorem entryEdgeCreatesRecordOrBlocks : Obligations.EntryEdgeCreatesRecordOrBlocks := by
  unfold Obligations.EntryEdgeCreatesRecordOrBlocks
  intro s l hr hrest he c
  have hexec := exec_entryEyeBlocked hr he
  have hp : (s.setEntryEye l true).atRest = true := State.setEntryEye_atRest hrest l true
  refine ⟨fun ht => ?_, fun ht htouch hroom => ?_, fun ht htouch hroom => ?_, fun ht htouch => ?_⟩
  · rw [hexec, if_neg (by rw [ht]; exact Bool.false_ne_true)]
    rfl
  · have e : (s.setEntryEye l true).entryEdge l = (s.setEntryEye l true).modLane l fun c =>
        { c.create with measure := 0, gapTest := none } :=
      (if_neg (by rw [show (s.setEntryEye l true).touches l = s.touches l from rfl, htouch]
                  exact Bool.false_ne_true)).trans (if_pos hroom)
    rw [if_pos ht, e] at hexec
    obtain ⟨h1, h2, h3⟩ := entered_alone (s := s.setEntryEye l true) hp ht
    exact ⟨_, hexec, h1, h2, h3⟩
  · have e : (s.setEntryEye l true).entryEdge l =
        ((s.setEntryEye l true).modLane l fun c => c.entered false).takeBlock l .overfill [] [c.tagCounter] := by
      refine ((if_neg ?_).trans (if_neg ?_)).trans ?_
      · rw [show (s.setEntryEye l true).touches l = s.touches l from rfl, htouch]
        exact Bool.false_ne_true
      · rw [show (s.setEntryEye l true).hasRoom l = s.hasRoom l from rfl, hroom]
        exact Bool.false_ne_true
      · rw [← funext (fun c => LaneCtl.entered_eq c false)]
        rfl
    rw [if_pos ht, e] at hexec
    obtain ⟨h1, h2, h3⟩ := entered_block (s := s.setEntryEye l true) hp ht false .overfill [] [c.tagCounter]
    refine ⟨_, hexec, congrArg LaneCtl.state h1, congrArg LaneCtl.reason h1, congrArg LaneCtl.removal h1,
      (congrArg LaneCtl.parcels h1).trans ?_, congrArg LaneCtl.tagCounter h1, h2, h3⟩
    simp only [LaneCtl.name, LaneCtl.entered, Bool.false_eq_true, if_false, List.append_nil, List.contains_nil,
      Bool.false_and]
    exact List.map_id' _
  · have e : (s.setEntryEye l true).entryEdge l =
        ((s.setEntryEye l true).modLane l fun c => c.entered (s.hasRoom l)).takeBlock l .touching
          (s.touched l ++ if s.hasRoom l then [c.tagCounter] else []) (s.touched l ++ [c.tagCounter]) := by
      refine (if_pos htouch).trans ?_
      rw [← funext (fun c => LaneCtl.entered_eq c (s.hasRoom l))]
      rfl
    rw [if_pos ht, e] at hexec
    obtain ⟨h1, h2, h3, h4, h5, h6⟩ := entered_block (s := s.setEntryEye l true) hp ht (s.hasRoom l) .touching
      (s.touched l ++ if s.hasRoom l then [c.tagCounter] else []) (s.touched l ++ [c.tagCounter])
    refine ⟨_, hexec, congrArg LaneCtl.state h1, congrArg LaneCtl.reason h1, congrArg LaneCtl.removal h1,
      (congrArg (fun d => d.parcels.length) h1).trans ?_, congrArg LaneCtl.tagCounter h1, h3, h4, h5, h6,
      ?_⟩
    · simp only [LaneCtl.name, LaneCtl.entered, List.length_map, List.length_append]
      cases s.hasRoom l <;> rfl
    intro g hg held room listed s1
    refine ⟨(congrArg LaneCtl.parcels h1).trans ?_, h2.trans ?_⟩
    · refine List.map_congr_left fun q _ => ?_
      simp only [State.touched_of_gapTest hg, Bool.and_eq_true, mem_named_iff, Option.isNone_iff_eq_none]
      rfl
    · rw [State.touched_of_gapTest hg]
      by_cases hh : held
      · rw [if_pos hh, show s1 = s.queueReport (.rejected l g .touching) from if_pos hh]
        rfl
      · rw [if_neg hh, show s1 = s from if_neg hh]
        rfl

end Sys2Proof.Machine
end

section
/-! PROOF. The hold eye, the launch eye and the button (R90, R91, R101, R113). -/

open Sys2Proof Sys2Proof.Machine

namespace Sys2Proof.Machine

/-! ### The list as a planning event leaves it -/

/-- A record without what the Planner and a block write: its plan slot, its misses and its name. -/
def Parcel.listing (p : Parcel) : Parcel := { p with planSlot := none, misses := 0, named := none }

/-- A lane not STOPPED keeps its list in all but plan slots, misses and names, and is not STOPPED after. -/
def LaneListed (c d : LaneCtl) : Prop :=
  c.state ≠ .stopped → d.state ≠ .stopped ∧ d.parcels.map Parcel.listing = c.parcels.map Parcel.listing

theorem LaneListed.refl (c : LaneCtl) : LaneListed c c := fun h => ⟨h, rfl⟩

theorem LaneListed.trans {c d e : LaneCtl} (h : LaneListed c d) (k : LaneListed d e) : LaneListed c e :=
  fun hc => by
    obtain ⟨h1, h2⟩ := h hc
    obtain ⟨k1, k2⟩ := k h1
    exact ⟨k1, k2.trans h2⟩

theorem LaneListed.of_map {c d : LaneCtl} (hs : d.state = c.state ∨ d.state ≠ .stopped) {f : Parcel → Parcel}
    (hp : d.parcels = c.parcels.map f) (hf : ∀ p, (f p).listing = p.listing) : LaneListed c d := fun hc => by
  refine ⟨hs.elim (fun e => e ▸ hc) id, ?_⟩
  rw [hp, List.map_map]
  exact List.map_congr_left fun p _ => hf p

/-- Every lane is listed as before. -/
def Listed (s t : State) : Prop := ∀ l, LaneListed (s.lane l) (t.lane l)

theorem Listed.of_lanes {s t : State} (h : t.lanes = s.lanes) : Listed s t := fun l => by
  change LaneListed (s.lanes.get l) (t.lanes.get l)
  rw [h]; exact .refl _

theorem Listed.modLane {s : State} {l : Lane} {f : LaneCtl → LaneCtl} (h : LaneListed (s.lane l) (f (s.lane l))) :
    Listed s (s.modLane l f) := fun m => by
  by_cases e : m = l
  · subst e; rw [State.modLane_lane_self]; exact h
  · rw [State.modLane_lane_ne _ _ e]; exact .refl _

theorem Listed.trans {s t u : State} (h : Listed s t) (k : Listed t u) : Listed s u :=
  fun l => (h l).trans (k l)

theorem LaneListed.modParcel (c : LaneCtl) (g : Tag) {f : Parcel → Parcel} (hf : ∀ p, (f p).listing = p.listing) :
    LaneListed c (c.modParcel g f) :=
  .of_map (.inl rfl) rfl fun p => by
    by_cases h : p.tag = g
    · rw [if_pos h, hf]
    · rw [if_neg h]

theorem State.takeBlock_listed (s : State) (l : Lane) (reason : BlockReason) (tags rejected : List Tag) :
    Listed s (s.takeBlock l reason tags rejected) := by
  intro m
  by_cases e : m = l
  · subst e
    by_cases hf : (s.lane m).state = .fault
    · have h : (s.takeBlock m reason tags rejected).lane m = (s.lane m).name reason tags := by
        simp only [State.takeBlock, hf]
        rw [State.rejectAll_lane, State.modLane_lane_self]
      rw [h]
      refine .of_map (.inl rfl) rfl fun p => ?_
      split <;> rfl
    · intro hs
      have h3 : (s.lane m).state = .running ∨ (s.lane m).state = .paused ∨ (s.lane m).state = .blocked := by
        cases hst : (s.lane m).state <;> simp_all
      rw [(s.takeBlock_lane m reason tags rejected h3).1]
      refine LaneListed.of_map (c := s.lane m) (.inr nofun) rfl (fun p => ?_) hs
      split <;> rfl
  · rw [(s.takeBlock_laneChange l reason tags rejected).lane_ne e]
    exact .refl _

theorem State.addMiss_listed (s : State) (l : Lane) (t : Tag) : Listed s (s.addMiss l t) := by
  have h1 : Listed s (s.modParcel l t fun r => { r with misses := r.misses + 1 }) :=
    .modLane (.modParcel _ _ fun _ => rfl)
  unfold State.addMiss
  dsimp only
  split
  · split
    · exact h1.trans (State.takeBlock_listed _ _ _ _ _)
    · exact h1
  · exact h1

/-- Placing frames and ending plans leave the lists. -/
theorem listed_workRel : WorkRel (fun _ => True) Listed where
  refl := fun _ _ => .refl _
  trans := .trans
  drop := fun s i => .of_lanes (by rw [State.dropEntry_eq])
  append := fun s e => .of_lanes (by rw [State.appendEntry_eq])
  report := fun s e => .of_lanes rfl
  claim := fun s ref => .of_lanes (by rw [State.withdrawClaim_eq])
  withdraw := trivial
  miss := fun s e l t _ => by
    unfold State.countMiss
    split
    · exact s.addMiss_listed l t
    · exact .of_lanes rfl
  unplan := fun s l sl p => by
    have : Listed s (s.modLane l fun c => c.modParcel p.tag fun r => { r with planSlot := none }) :=
      .modLane (.modParcel _ _ fun _ => rfl)
    refine this.trans (.of_lanes ?_)
    rw [State.unplan_eq]
    rfl

theorem State.takeTrigger_listed {s : State} {l : Lane} {sl : Slot} {p : Plan} (hp : s.plan l sl = some p)
    (ht : p.state = .tentative) : Listed s (s.takeTrigger l sl) := by
  have hp' : (s.setTrig (s.trig.set l sl none)).plan l sl = some p := hp
  simp only [State.takeTrigger, hp', ht]
  exact Listed.trans (t := s.setTrig (s.trig.set l sl none)) (.of_lanes rfl) (listed_workRel.endPlan _ trivial l sl)

theorem State.arm_listed {s : State} {l : Lane} {sl : Slot} {p : Plan} (hp : s.plan l sl = some p)
    (ht : p.state = .tentative) (position : Nat) : Listed s (s.arm l sl position) := by
  unfold State.arm
  dsimp only
  split
  · split
    · exact Listed.trans (t := s.setTrig (s.trig.set l sl (some position))) (.of_lanes rfl)
        (State.takeTrigger_listed hp ht)
    · exact .of_lanes rfl
  · exact .of_lanes rfl

/-- A plan made, and ended at once where its trigger is reached, leaves the lists. -/
theorem State.makePlan_listed (s : State) (l : Lane) (sl : Slot) (t : Tag) (k : Nat) (sp : Span) (lead : Nat) :
    Listed s (s.makePlan l sl t k sp lead) := by
  unfold State.makePlan
  dsimp only
  generalize he : (s.ownTrays { lane := l, tag := t } k sp).appendEntry _ = u
  have h1 : Listed s u := .of_lanes (by
    rw [← he, State.appendEntry_eq]
    cases sp <;> rfl)
  have h2 : Listed u ((u.setPlan l sl (some (s.newPlan t k sp lead))).modParcel l t fun r =>
      { r with planSlot := some sl }) :=
    (Listed.of_lanes (s := u) (t := u.setPlan l sl (some (s.newPlan t k sp lead))) rfl).trans
      (.modLane (.modParcel _ _ fun _ => rfl))
  refine (h1.trans h2).trans (State.arm_listed (p := s.newPlan t k sp lead) ?_ rfl _)
  exact u.plans.get_set_self l sl _

theorem State.suspend_listed (s : State) (l : Lane) : Listed s (s.suspend l) := by
  unfold State.suspend
  split <;> exact .of_lanes rfl

theorem planParcels_listed (l : Lane) : ∀ (rs : List Parcel) (s : State), Listed s (planParcels rs l s).1
  | [], s => .of_lanes rfl
  | r :: rest, s => by
    rw [planParcels]
    dsimp only
    split
    · exact s.suspend_listed l
    split
    · exact .of_lanes rfl
    split
    · split
      · exact .of_lanes rfl
      · split
        · exact (s.makePlan_listed _ _ _ _ _ _).trans (planParcels_listed l rest _)
        · exact s.makePlan_listed _ _ _ _ _ _
    · exact .of_lanes rfl

/-- A planning event leaves the lists. -/
theorem State.planningEvent_listed (s : State) : Listed s s.planningEvent := by
  unfold State.planningEvent
  split
  · split
    · have h1 := (Listed.of_lanes (s := s) (t := s.modPlanner fun p => { p with arbiter := s.arbitrate }) rfl).trans
        (planParcels_listed s.arbitrate (s.offered s.arbitrate) _)
      dsimp only
      split
      · exact h1
      · exact h1.trans (planParcels_listed _ _ _)
    · exact planParcels_listed _ _ _
    · exact planParcels_listed _ _ _
    · exact .of_lanes rfl
  · exact .of_lanes rfl

theorem LaneListed.exists_mem {c d : LaneCtl} (h : LaneListed c d) (hs : c.state ≠ .stopped) {p : Parcel}
    (hp : p ∈ c.parcels) : ∃ q ∈ d.parcels, q.listing = p.listing := by
  have := List.mem_map_of_mem (f := Parcel.listing) hp
  rw [← (h hs).2] at this
  obtain ⟨q, hq, e⟩ := List.mem_map.1 this
  exact ⟨q, hq, e⟩

/-! ### The hold eye and the launch eye -/

theorem exec_holdEyeBlocked {s : State} {l : Lane} (hr : s.pins.rstLow = false) :
    exec (.holdEyeBlocked l) s = .next (if (s.lane l).feed then
      match (s.lane l).at? .queued with
      | some r => (s.toHolding l r).settle s true false
      | none => s
      else s) := by
  change execHoldEyeBlocked l s = _
  unfold execHoldEyeBlocked
  refine (State.unlessHeld_of_rstHigh hr _).trans ?_
  cases (s.lane l).feed <;> cases (s.lane l).at? .queued <;> rfl

theorem exec_launchEyeBlocked {s : State} {l : Lane} (hr : s.pins.rstLow = false) :
    exec (.launchEyeBlocked l) s = .next (if (s.lane l).transfer.isSome then
      (s.modLane l fun c =>
        { c with
          parcels := c.parcels.map fun r => if r.place = .transferring then { r with place := .ready } else r
          transfer := none }).settle s false false
      else s) := by
  change execLaunchEyeBlocked l s = _
  unfold execLaunchEyeBlocked
  exact State.unlessHeld_of_rstHigh hr _

theorem resolveDest_eq (chute : Byte) (o : Option Scan) :
    resolveDest chute o = (match o with
      | none => { chute := chute, noRead := true }
      | some sc =>
        if sc.noRead = true ∨ sc.multiRead = true ∨ sc.chute = 0 ∨ sc.chute = 255 then
          { chute := chute, noRead := true }
        else { chute := sc.chute, noRead := false }) := by
  cases o with
  | none => rfl
  | some sc =>
    unfold resolveDest
    refine ite_congr (propext ?_) (fun _ => rfl) fun _ => rfl
    simp only [Bool.or_eq_true, beq_iff_eq, or_assoc]

/-- A record in the hold place at the event's start, or on its way from there, after any end of an event on a station
ONLINE: its planning event leaves where it is. -/
theorem settle_holding {s u : State} {l : Lane} {p : Parcel} (hst : u.table.station ≠ .leaving)
    (hs : (u.lane l).state ≠ .stopped) (hp : p ∈ (u.lane l).parcels)
    (hpl : p.place = .holding ∨ p.place = .transferring) (planning test : Bool) :
    ∃ q ∈ ((u.settle s planning test).lane l).parcels, q.tag = p.tag ∧ q.scan = p.scan ∧
      q.holdTick = p.holdTick ∧ q.dest = p.dest ∧ (q.place = .holding ∨ q.place = .transferring) := by
  have moved : ∀ {c d : LaneCtl} (m : LaneMoved c d) {p : Parcel}, p ∈ c.parcels →
      (p.place = .holding ∨ p.place = .transferring) → ∃ q ∈ d.parcels, q.tag = p.tag ∧ q.scan = p.scan ∧
        q.holdTick = p.holdTick ∧ q.dest = p.dest ∧ (q.place = .holding ∨ q.place = .transferring) := by
    intro c d m p hp hpl
    obtain ⟨f, e, hf⟩ := m.parcels
    refine ⟨f p, e ▸ List.mem_map_of_mem hp, ?_⟩
    rcases hf p with h | h <;> rw [h]
    · exact ⟨rfl, rfl, rfl, rfl, hpl⟩
    · exact ⟨rfl, rfl, rfl, rfl, .inr rfl⟩
  obtain ⟨v, w, hv, e⟩ := u.settle_cases s planning test
  have hlist : Listed u.startTransfers v := by
    rcases hv with rfl | rfl
    · exact .of_lanes rfl
    · exact State.planningEvent_listed _
  have ht : v.updateFeeds.table.station = u.table.station := by
    rw [State.updateFeeds_eq]
    exact congrArg ConfigTable.station
      (w.table.trans (u.startTransfers_keep State.table fun _ _ => rfl))
  have ev : EventEnd v (v.finish s test) :=
    State.finish_eventEnd _ _ _ (.inr (by simp [State.leavingDone, ht, hst]))
  obtain ⟨q1, m1, a1, b1, c1, d1, e1⟩ := moved (u.startTransfers_moved l) hp hpl
  obtain ⟨q2, m2, h2⟩ := (hlist l).exists_mem (by rw [(u.startTransfers_moved l).state]; exact hs) m1
  have hx : q2.tag = q1.tag ∧ q2.scan = q1.scan ∧ q2.holdTick = q1.holdTick ∧ q2.dest = q1.dest ∧
      q2.place = q1.place :=
    ⟨(congrArg Parcel.tag h2 :), (congrArg Parcel.scan h2 :), (congrArg Parcel.holdTick h2 :),
      (congrArg Parcel.dest h2 :), (congrArg Parcel.place h2 :)⟩
  obtain ⟨a2, b2, c2, d2, e2⟩ := hx
  obtain ⟨q3, m3, a3, b3, c3, d3, e3⟩ := moved (ev.lanes l) m2 (by rw [e2]; exact e1)
  rw [e]
  exact ⟨q3, m3, a3.trans (a2.trans a1), b3.trans (b2.trans b1), c3.trans (c2.trans c1), d3.trans (d2.trans d1), e3⟩

/-- What a transfer completed leaves of its lane. -/
def LaneCtl.readied (c : LaneCtl) : LaneCtl :=
  { c with
    parcels := c.parcels.map fun r => if r.place = .transferring then { r with place := .ready } else r
    transfer := none }

/-- A READY record keeps the launch place: no other transfer begins. -/
theorem State.noTransfer_of_launchTaken {s : State} {l : Lane} (h : (s.lane l).launchTaken = true) :
    s.NoTransfer l := by
  rw [State.noTransfer_iff, State.transferReady?]
  exact if_neg (by simp [h])

theorem launchEye_ready {s : State} {l : Lane} {r : Parcel} (hr : (s.lane l).at? .transferring = some r) :
    let t := (s.modLane l LaneCtl.readied).settle s false false
    (t.lane l).transfer = none ∧
      (∃ q ∈ (t.lane l).parcels, q.tag = r.tag ∧ q.place = .ready ∧ q.dest = r.dest) ∧
      (t.lane l).state = (s.lane l).state ∧ (t.lane l).parcels.length = (s.lane l).parcels.length ∧
      t.trays = s.trays ∧ t.plans = s.plans ∧ t.txq = s.txq ∧ t.rep = s.rep ∧ t.loop = s.loop := by
  intro t
  have hc : LaneChange l s (s.modLane l LaneCtl.readied) := s.modLane_laneChange l _
  have hl : (s.modLane l LaneCtl.readied).lane l = (s.lane l).readied := State.modLane_lane_self ..
  have hpl : r.place = .transferring := by simpa using List.find?_some hr
  have hm : { r with place := .ready } ∈ (s.lane l).readied.parcels :=
    List.mem_map.2 ⟨r, List.mem_of_find?_eq_some hr, if_pos hpl⟩
  have hn : (s.modLane l LaneCtl.readied).NoTransfer l := by
    refine State.noTransfer_of_launchTaken ?_
    rw [hl, LaneCtl.launchTaken]
    exact List.any_eq_true.2 ⟨_, hm, rfl⟩
  have hlane := hc.settle_lane hn
  rw [hl] at hlane
  obtain ⟨h1, h2, h3, h4⟩ := hc.kept
  refine ⟨congrArg LaneCtl.transfer hlane, ?_, (congrArg LaneCtl.state hlane :), ?_, h1, h2, h3, hc.eventEnd.rep, h4⟩
  · rw [congrArg LaneCtl.parcels hlane]
    exact ⟨_, hm, rfl, rfl, rfl⟩
  · rw [congrArg LaneCtl.parcels hlane]
    exact List.length_map _

/-- Settles O44: the front record in the hold place at its event's end, and READY by its transfer. -/
theorem holdAndLaunchEyesMoveParcels : Obligations.HoldAndLaunchEyesMoveParcels := by
  unfold Obligations.HoldAndLaunchEyesMoveParcels
  intro s l hr
  refine ⟨fun r hrest hf hq => ?_, fun hf => ?_, fun n r ht hq => ?_, fun ht => ?_⟩
  · have hexec := exec_holdEyeBlocked (l := l) hr
    rw [if_pos hf, hq] at hexec
    have hruns : s.feedRuns l = true := (State.feed_of_atRest hrest l).symm.trans hf
    simp only [State.feedRuns, Bool.and_eq_true, beq_iff_eq] at hruns
    obtain ⟨⟨⟨hon, hst⟩, -⟩, -⟩ := hruns
    have hsta : s.table.station ≠ .leaving := by
      rw [show s.table.station = .online by simpa [State.online] using hon]
      decide
    have hl : (s.toHolding l r).lane l = (s.lane l).modParcel r.tag fun r =>
        { r with place := .holding, dest := some (resolveDest s.cfgNoRead r.scan), holdTick := some s.tick } :=
      State.modLane_lane_self ..
    have hm : { r with
        place := .holding, dest := some (resolveDest s.cfgNoRead r.scan), holdTick := some s.tick } ∈
        ((s.toHolding l r).lane l).parcels := by
      rw [hl]
      exact List.mem_map.2 ⟨r, List.mem_of_find?_eq_some hq, if_pos rfl⟩
    obtain ⟨q, hq', a, b, c, d, e⟩ := settle_holding (s := s) (u := s.toHolding l r) hsta
      (by rw [hl]; exact fun h => nomatch hst.symm.trans h)
      hm (.inl rfl) true false
    obtain ⟨h1, h2⟩ := State.settle_table_doubt (s.toHolding l r) s true false hsta
    exact ⟨_, hexec, ⟨q, hq', a, b, c, e, d.trans (congrArg some (resolveDest_eq _ _))⟩,
      ((s.toHolding l r).settle_kept s true false).loop, h2, h1⟩
  · rw [exec_holdEyeBlocked hr, if_neg (by rw [hf]; exact Bool.false_ne_true)]
  · have hexec := exec_launchEyeBlocked (l := l) hr
    rw [if_pos (by rw [ht]; rfl)] at hexec
    exact ⟨_, hexec, launchEye_ready hq⟩
  · rw [exec_launchEyeBlocked hr, if_neg (by rw [ht]; exact Bool.false_ne_true)]

end Sys2Proof.Machine
end

section
/-! PROOF. The button (R101). -/

open Sys2Proof Sys2Proof.Machine

namespace Sys2Proof.Machine

theorem exec_buttonPress {s : State} {l : Lane} (hr : s.pins.rstLow = false) :
    exec (.buttonPress l) s = .next
      (let u := { s with
        pins := { s.pins with button := s.pins.button.set l true }
        lanes := s.lanes.set l { s.lane l with buttonFilter := 0 } }
      if 20 ≤ (s.lane l).buttonFilter then
        (u.press l).settle { s with pins := { s.pins with button := s.pins.button.set l true } } false false
      else u) := by
  change execButtonPress l s = _
  unfold execButtonPress
  exact State.unlessHeld_of_rstHigh
    (s := { s with pins := { s.pins with button := s.pins.button.set l true } }) hr _

/-- A press changes lanes, paces and reports alone. -/
theorem State.press_eq (s : State) (l : Lane) :
    s.press l = { s with lanes := (s.press l).lanes, pace := (s.press l).pace, rep := (s.press l).rep } := by
  unfold State.press
  split
  · rw [State.enterLane_eq]
  · rw [State.enterLane_eq]
  · split
    · rw [State.enterLane_eq]; rfl
    · rfl
  · rfl
  · rfl

theorem State.press_running {s : State} {l : Lane} (h : (s.lane l).state = .running) :
    s.press l = s.enterLane l .paused .button := by simp only [State.press, h]

theorem State.press_paused {s : State} {l : Lane} (h : (s.lane l).state = .paused) :
    s.press l = s.enterLane l .running .button := by simp only [State.press, h]

theorem State.press_acknowledged {s : State} {l : Lane} (h : (s.lane l).state = .blocked)
    (hm : s.mayAcknowledge l = true) :
    s.press l = (s.modLane l LaneCtl.deleteNamed).enterLane l .running .button := by
  simp only [State.press, h, hm, if_true]

theorem State.press_ignored {s : State} {l : Lane} (h : (s.lane l).state = .stopped ∨ (s.lane l).state = .fault ∨
    ((s.lane l).state = .blocked ∧ s.mayAcknowledge l = false)) : s.press l = s := by
  rcases h with h | h | ⟨h, hm⟩
  · simp only [State.press, h]
  · simp only [State.press, h]
  · simp only [State.press, h, hm, Bool.false_eq_true, if_false]

/-- What every press leaves of its lane, whatever it does. -/
theorem State.press_lane (s : State) (l : Lane) :
    ((s.press l).lane l).buttonFilter = (s.lane l).buttonFilter ∧ ((s.press l).lane l).early = (s.lane l).early := by
  unfold State.press
  split
  · rw [State.enterLane_lane_self]; exact ⟨rfl, rfl⟩
  · rw [State.enterLane_lane_self]; exact ⟨rfl, rfl⟩
  · split
    · rw [State.enterLane_lane_self, State.modLane_lane_self]; exact ⟨rfl, rfl⟩
    · exact ⟨rfl, rfl⟩
  · exact ⟨rfl, rfl⟩
  · exact ⟨rfl, rfl⟩

/-- The end of an event at which a press was acted on. -/
theorem State.press_settle (u before : State) (l : Lane) (hp : u.plans = before.plans) (hq : u.txq = before.txq) :
    EventEnd (u.press l) ((u.press l).settle before false false) := by
  refine State.settle_quiet ?_ ?_
  · rw [State.press_eq]; exact hp
  · rw [State.press_eq]; exact hq

/-- A lane that enters RUNNING restarts its pace (R141). -/
theorem State.enterLane_pace (s : State) (l : Lane) (reason : LaneReason) :
    ((s.enterLane l .running reason).pace.lanes.get l).index = 15 ∧
      ((s.enterLane l .running reason).pace.lanes.get l).valid = false := by
  rw [State.enterLane_eq, if_pos rfl, State.paceRestart_self]
  exact ⟨rfl, rfl⟩

theorem State.enterLane_rep (s : State) (l : Lane) (st : LaneState) (reason : LaneReason) :
    (s.enterLane l st reason).rep = (s.queueReport (.lane l st reason)).rep := by
  rw [State.enterLane_eq]

/-- What a press does by lane state, at the end of its event. -/
theorem pressed (u before : State) (l : Lane) (hp : u.plans = before.plans) (hq : u.txq = before.txq) :
    let t := (u.press l).settle before false false
    ((u.lane l).state = .running → (t.lane l).state = .paused ∧ (t.lane l).reason = .button ∧
      t.rep = (u.queueReport (.lane l .paused .button)).rep) ∧
    ((u.lane l).state = .paused → (t.lane l).state = .running ∧ (t.lane l).reason = .button ∧
      (t.lane l).removal = false ∧ (t.pace.lanes.get l).index = 15 ∧ (t.pace.lanes.get l).valid = false ∧
      t.rep = (u.queueReport (.lane l .running .button)).rep) ∧
    ((u.lane l).state = .blocked → u.mayAcknowledge l = true → (t.lane l).state = .running ∧
      (t.lane l).removal = false ∧ (t.lane l).gapTest = none ∧
      (t.lane l).parcels.map Parcel.tag =
        ((u.lane l).parcels.filter fun q => q.named.isNone).map Parcel.tag ∧
      t.rep = (u.queueReport (.lane l .running .button)).rep) ∧
    ((u.lane l).state = .stopped ∨ (u.lane l).state = .fault ∨
      ((u.lane l).state = .blocked ∧ u.mayAcknowledge l = false) →
      (t.lane l).state = (u.lane l).state ∧ t.rep = u.rep) := by
  intro t
  have ev := u.press_settle before l hp hq
  have hst : (t.lane l).state = ((u.press l).lane l).state := (ev.lanes l).state
  have hre : (t.lane l).reason = ((u.press l).lane l).reason := (ev.lanes l).reason
  have hrm : (t.lane l).removal = ((u.press l).lane l).removal := (ev.lanes l).removal
  have hgt : (t.lane l).gapTest = ((u.press l).lane l).gapTest := (ev.lanes l).gapTest
  have htag := (ev.lanes l).map_eq Parcel.tag fun _ => rfl
  have hrep : t.rep = (u.press l).rep := ev.rep
  have hix : (t.pace.lanes.get l).index = ((u.press l).pace.lanes.get l).index := ev.index l
  have hva : (t.pace.lanes.get l).valid = ((u.press l).pace.lanes.get l).valid := ev.valid l
  refine ⟨fun h => ?_, fun h => ?_, fun h hm => ?_, fun h => ?_⟩
  · rw [hst, hre, hrep, State.press_running h, State.enterLane_lane_self, State.enterLane_rep]
    exact ⟨rfl, rfl, rfl⟩
  · obtain ⟨h1, h2⟩ := u.enterLane_pace l .button
    rw [hst, hre, hrm, hix, hva, hrep, State.press_paused h, State.enterLane_lane_self, State.enterLane_rep, h1, h2]
    exact ⟨rfl, rfl, rfl, rfl, rfl, rfl⟩
  · rw [State.press_acknowledged h hm, State.enterLane_lane_self, State.modLane_lane_self] at hst hrm hgt
    refine ⟨hst, hrm, hgt, htag.trans ?_, hrep.trans ?_⟩
    · rw [State.press_acknowledged h hm, State.enterLane_lane_self, State.modLane_lane_self]
      rfl
    · rw [State.press_acknowledged h hm, State.enterLane_rep]
      rfl
  · rw [hst, hrep, State.press_ignored h]
    exact ⟨rfl, rfl⟩

theorem State.mayAcknowledge_iff (s : State) (l : Lane) :
    s.mayAcknowledge l = true ↔ s.pins.entryEye.get l = false ∨ (s.lane l).measuring?.isSome = true := by
  simp [State.mayAcknowledge]

/-- Settles O47: a press sooner than 20 ms clears the filter alone, another acts by lane state. -/
theorem buttonPressActsByLaneState : Obligations.ButtonPressActsByLaneState := by
  unfold Obligations.ButtonPressActsByLaneState
  intro s l hr c acts clear
  have hexec := exec_buttonPress (l := l) hr
  dsimp only at hexec
  generalize hu : ({ s with
      pins := { s.pins with button := s.pins.button.set l true }
      lanes := s.lanes.set l { s.lane l with buttonFilter := 0 } } : State) = u at hexec
  have hl : u.lane l = { c with buttonFilter := 0 } := by
    rw [← hu]; exact Two.get_set_self _ _ _
  have hst : (u.lane l).state = c.state := by rw [hl]
  by_cases ha : acts
  · rw [if_pos ha] at hexec
    have hp : u.plans = s.plans := by rw [← hu]
    have hq : u.txq = s.txq := by rw [← hu]
    generalize hb : ({ s with pins := { s.pins with button := s.pins.button.set l true } } : State) = before
      at hexec
    have hp' : u.plans = before.plans := by rw [hp, ← hb]
    have hq' : u.txq = before.txq := by rw [hq, ← hb]
    obtain ⟨h1, h2, h3, h4⟩ := pressed u before l hp' hq'
    have ev := u.press_settle before l hp' hq'
    have hrep : ∀ r, (u.queueReport r).rep = (s.queueReport r).rep :=
      State.queueReport_rep_congr (by rw [← hu])
    have hack : u.mayAcknowledge l = true ↔ clear := by
      rw [State.mayAcknowledge_iff, hl, ← hu]
      rfl
    have hpar : (u.lane l).parcels = c.parcels := by rw [hl]
    rw [hst] at h1 h2 h3 h4
    rw [hpar, hrep] at h3
    rw [hrep] at h1 h2
    obtain ⟨hf, he⟩ := u.press_lane l
    rw [hl] at hf he
    refine ⟨_, hexec, (ev.lanes l).buttonFilter.trans hf, ev.pins.trans ?_, fun _ => h1, fun _ => h2,
      fun _ hb hc => h3 hb (hack.2 hc), fun hno => ?_, ev.trays.trans ?_, ev.plans.trans ?_, ev.txq.trans ?_,
      ev.loop.trans ?_, (ev.lanes l).early.trans he⟩
    · rw [State.press_eq, ← hu]
    · have hno' : c.state = .stopped ∨ c.state = .fault ∨ (c.state = .blocked ∧ u.mayAcknowledge l = false) := by
        rcases hno with h | h | h | ⟨h, hn⟩
        · exact absurd ha h
        · exact .inl h
        · exact .inr (.inl h)
        · exact .inr (.inr ⟨h, Bool.eq_false_iff.2 fun e => hn (hack.1 e)⟩)
      obtain ⟨k1, k2⟩ := h4 hno'
      exact ⟨k1, k2.trans (by rw [← hu])⟩
    · rw [State.press_eq, ← hu]
    · rw [State.press_eq, ← hu]
    · rw [State.press_eq, ← hu]
    · rw [State.press_eq, ← hu]
  · rw [if_neg ha] at hexec
    refine ⟨_, hexec, by rw [hl], by rw [← hu], fun h => absurd h ha, fun h => absurd h ha, fun h => absurd h ha,
      fun _ => ⟨hst, by rw [← hu]⟩, by rw [← hu], by rw [← hu], by rw [← hu], by rw [← hu], by rw [hl]⟩

end Sys2Proof.Machine
end

section
/-! PROOF. The ends of a measurement (R87, R88, R99, R111, R112). -/

open Sys2Proof Sys2Proof.Machine

namespace Sys2Proof.Machine

theorem exec_entryEyeClear {s : State} {l : Lane} (hr : s.pins.rstLow = false) :
    exec (.entryEyeClear l) s = .next (match (s.lane l).measuring? with
      | some r => ((s.setEntryEye l false).endMeasure l r).settle (s.setEntryEye l false) false false
      | none => s.setEntryEye l false) := by
  change execEntryEyeClear l s = _
  unfold execEntryEyeClear
  refine (State.unlessHeld_of_rstHigh (s := s.setEntryEye l false) hr _).trans ?_
  have e : (s.setEntryEye l false).lane l = s.lane l := rfl
  cases h : (s.lane l).measuring? <;> simp only [e, h]

theorem exec_measurementLimit {s : State} {l : Lane} (hr : s.pins.rstLow = false) :
    exec (.measurementLimit l) s = .next ((s.measureLimit l).settle s false false) := by
  change execMeasurementLimit l s = _
  unfold execMeasurementLimit
  exact State.unlessHeld_of_rstHigh hr _

theorem measuring?_some {c : LaneCtl} {r : Parcel} (h : c.measuring? = some r) :
    r ∈ c.parcels ∧ r.place = .measuring ∧ r.named = none := by
  have := List.find?_some h
  simp only [Bool.and_eq_true, beq_iff_eq, Option.isNone_iff_eq_none] at this
  exact ⟨List.mem_of_find?_eq_some h, this⟩

/-! ### Debris (R87, R112) -/

theorem State.returnScan_laneChange (s : State) (l : Lane) (sc : Scan) : LaneChange l s (s.returnScan l sc) := by
  unfold State.returnScan
  dsimp only
  split
  · exact s.modLane_laneChange l _
  · split
    · exact (s.modLane_laneChange l _).trans (State.queueReport_laneChange _ l _)
    · exact s.modLane_laneChange l _

theorem State.returnScan_of_some {s : State} {l : Lane} {q : Parcel} (sc : Scan)
    (h : (s.lane l).parcels.find? Parcel.isCandidate = some q) :
    s.returnScan l sc = s.modLane l fun c => c.giveScan q.tag sc := by
  simp only [State.returnScan, h]

theorem State.returnScan_of_none {s : State} {l : Lane} (sc : Scan)
    (h : (s.lane l).parcels.find? Parcel.isCandidate = none) :
    s.returnScan l sc = match (s.lane l).early with
      | some old => (s.modLane l fun c => { c with early := some sc }).queueReport (.orphan l old.id)
      | none => s.modLane l fun c => { c with early := some sc } := by
  simp only [State.returnScan, h] <;> rfl

/-- A scan returned keeps the lane's records but for their scans, and its state. -/
theorem State.returnScan_lane (s : State) (l : Lane) (sc : Scan) :
    ((s.returnScan l sc).lane l).state = (s.lane l).state ∧
      ∃ f : Parcel → Parcel, ((s.returnScan l sc).lane l).parcels = (s.lane l).parcels.map f ∧
        ∀ p, f p = p ∨ f p = { p with scan := some sc } := by
  cases h : (s.lane l).parcels.find? Parcel.isCandidate with
  | some q =>
    rw [State.returnScan_of_some sc h, State.modLane_lane_self]
    refine ⟨rfl, _, rfl, fun p => ?_⟩
    by_cases e : p.tag = q.tag
    · exact .inr (if_pos e)
    · exact .inl (if_neg e)
  | none =>
    rw [State.returnScan_of_none sc h]
    have hl : ∀ u : State, u.lanes = (s.modLane l fun c => { c with early := some sc }).lanes →
        (u.lane l).state = (s.lane l).state ∧ ∃ f : Parcel → Parcel,
          (u.lane l).parcels = (s.lane l).parcels.map f ∧ ∀ p, f p = p ∨ f p = { p with scan := some sc } := by
      intro u hu
      have : u.lane l = { s.lane l with early := some sc } :=
        (congrArg (Two.get · l) hu).trans (State.modLane_lane_self ..)
      rw [this]
      exact ⟨rfl, id, (List.map_id _).symm, fun _ => .inl rfl⟩
    cases (s.lane l).early <;> exact hl _ rfl

theorem State.returnScan_grows (s : State) (l : Lane) (sc : Scan) : RepGrows s.rep (s.returnScan l sc).rep := by
  cases h : (s.lane l).parcels.find? Parcel.isCandidate with
  | some q => rw [State.returnScan_of_some sc h]; exact .refl _
  | none =>
    rw [State.returnScan_of_none sc h]
    cases (s.lane l).early with
    | none => exact .refl _
    | some old => exact State.queueReport_grows (s.modLane l fun c => { c with early := some sc }) _

/-- The state after the debris record has gone and its report is queued. -/
def State.debrisGone (s : State) (l : Lane) (r : Parcel) : State :=
  (s.modLane l fun c => c.dropParcel r.tag).queueReport (.rejected l r.tag .debris)

theorem State.debris_eq (s : State) (l : Lane) (r : Parcel) :
    s.debris l r = match r.scan with
      | some sc => (s.debrisGone l r).returnScan l sc
      | none => s.debrisGone l r := rfl

theorem State.debrisGone_laneChange (s : State) (l : Lane) (r : Parcel) : LaneChange l s (s.debrisGone l r) :=
  (s.modLane_laneChange l _).trans (State.queueReport_laneChange _ l _)

theorem State.debrisGone_lane (s : State) (l : Lane) (r : Parcel) :
    (s.debrisGone l r).lane l = (s.lane l).dropParcel r.tag :=
  s.modLane_lane_self l fun c => c.dropParcel r.tag

theorem State.debris_laneChange (s : State) (l : Lane) (r : Parcel) : LaneChange l s (s.debris l r) := by
  rw [State.debris_eq]
  cases r.scan with
  | none => exact s.debrisGone_laneChange l r
  | some sc => exact (s.debrisGone_laneChange l r).trans (State.returnScan_laneChange _ l sc)

theorem State.debris_lane (s : State) (l : Lane) (r : Parcel) :
    ((s.debris l r).lane l).state = (s.lane l).state ∧ ∃ f : Parcel → Parcel,
      ((s.debris l r).lane l).parcels = ((s.lane l).parcels.filter fun q => q.tag != r.tag).map f ∧
        ∀ p, f p = p ∨ ∃ sc, f p = { p with scan := some sc } := by
  rw [State.debris_eq]
  cases r.scan with
  | none =>
    rw [State.debrisGone_lane]
    exact ⟨rfl, id, (List.map_id _).symm, fun _ => .inl rfl⟩
  | some sc =>
    obtain ⟨h1, f, h2, h3⟩ := (s.debrisGone l r).returnScan_lane l sc
    rw [State.debrisGone_lane] at h1 h2
    exact ⟨h1, f, h2, fun p => (h3 p).imp_right fun e => ⟨sc, e⟩⟩

theorem State.debris_grows (s : State) (l : Lane) (r : Parcel) :
    RepGrows (s.queueReport (.rejected l r.tag .debris)).rep (s.debris l r).rep := by
  rw [State.debris_eq]
  cases r.scan with
  | none => exact .refl _
  | some sc => exact (s.debrisGone l r).returnScan_grows l sc

/-- Debris of a lane whose records have tags of their own begins no transfer. -/
theorem State.debris_noTransfer {s : State} {l : Lane} {r : Parcel} (hn : s.NoTransfer l)
    (hm : r.place = .measuring) (hu : ∀ q ∈ (s.lane l).parcels, q.tag = r.tag → q = r) :
    (s.debris l r).NoTransfer l := by
  obtain ⟨hst, f, hp, hf⟩ := s.debris_lane l r
  have keep : ∀ p : Parcel, (f p).place = p.place ∧ (f p).named = p.named := fun p => by
    rcases hf p with e | ⟨sc, e⟩ <;> rw [e] <;> exact ⟨rfl, rfl⟩
  refine hn.of_places (s.debris_laneChange l r).online (by rw [hst]; exact id) (fun q hq h1 h2 => ?_) fun ht => ?_
  · rw [hp] at hq
    obtain ⟨p, hp', rfl⟩ := List.mem_map.1 hq
    exact ⟨p, (List.mem_filter.1 hp').1, (keep p).1 ▸ h1, (keep p).2 ▸ h2⟩
  · obtain ⟨p, hp', hb⟩ := List.any_eq_true.1 ht
    have hne : p.tag ≠ r.tag := fun e => by
      rw [hu p hp' e, hm] at hb
      exact absurd hb (by decide)
    refine List.any_eq_true.2 ⟨f p, ?_, by rw [(keep p).1]; exact hb⟩
    rw [hp]
    exact List.mem_map_of_mem (List.mem_filter.2 ⟨hp', by simpa using hne⟩)

/-- A measurement below the least length ends as DEBRIS (R87), its scan returned (R112). -/
theorem debris_end {s : State} {l : Lane} {r : Parcel} (hrest : s.atRest = true)
    (hm : (s.lane l).measuring? = some r) :
    let c := s.lane l
    let t := (s.debris l r).settle s false false
    (t.lane l).parcels.map Parcel.tag = (c.parcels.filter fun q => q.tag != r.tag).map Parcel.tag ∧
    (t.lane l).state = c.state ∧ (s.queueReport (.rejected l r.tag .debris)).rep.fifo <+: t.rep.fifo ∧
    t.trays = s.trays ∧ t.plans = s.plans ∧ t.txq = s.txq ∧ t.loop = s.loop ∧
    ((∀ q ∈ c.parcels, q.tag = r.tag → q = r) →
      (t.lane l).parcels = ((s.debris l r).lane l).parcels ∧
      (t.lane l).early = ((s.debris l r).lane l).early ∧ t.rep = (s.debris l r).rep) := by
  intro c t
  have hc := s.debris_laneChange l r
  obtain ⟨hst, f, hp, hf⟩ := s.debris_lane l r
  have ev := hc.eventEnd
  obtain ⟨k1, k2, k3, k4⟩ := hc.kept
  refine ⟨((ev.lanes l).map_eq Parcel.tag fun _ => rfl).trans ?_, (ev.lanes l).state.trans hst, ?_, k1, k2, k3, k4,
    fun hu => ?_⟩
  · rw [hp, List.map_map]
    refine List.map_congr_left fun p _ => ?_
    rcases hf p with e | ⟨sc, e⟩ <;> exact (congrArg Parcel.tag e :)
  · obtain ⟨bytes, e⟩ := (s.debris_grows l r).fifo
    rw [ev.rep]
    exact ⟨bytes, e.symm⟩
  · obtain ⟨hmem, hpl, -⟩ := measuring?_some hm
    have hl := hc.settle_lane (State.debris_noTransfer (State.noTransfer_of_atRest hrest l) hpl hu)
    exact ⟨(congrArg LaneCtl.parcels hl :), (congrArg LaneCtl.early hl :), ev.rep⟩

/-- Where the scan of a debris record goes (R112). -/
theorem debris_scan {s : State} {l : Lane} {r : Parcel} :
    let left := (s.lane l).parcels.filter fun q => q.tag != r.tag
    let gone := s.queueReport (.rejected l r.tag .debris)
    let u := s.debris l r
    (r.scan = none → (u.lane l).parcels = left ∧ (u.lane l).early = (s.lane l).early ∧ u.rep = gone.rep) ∧
    ∀ sc, r.scan = some sc →
      ((∀ q ∈ left, q.isCandidate = false) → (u.lane l).parcels = left ∧ (u.lane l).early = some sc ∧
        ((s.lane l).early = none → u.rep = gone.rep) ∧
        ∀ old, (s.lane l).early = some old → u.rep = (gone.queueReport (.orphan l old.id)).rep) ∧
      ∀ older q younger, left = older ++ q :: younger → (∀ x ∈ older, x.isCandidate = false) →
        q.isCandidate = true → (∀ x ∈ older ++ younger, x.tag ≠ q.tag) →
        (u.lane l).parcels = older ++ { q with scan := some sc } :: younger ∧
          (u.lane l).early = (s.lane l).early ∧ u.rep = gone.rep := by
  intro left gone u
  have hd := s.debrisGone_lane l r
  have hpar : ((s.debrisGone l r).lane l).parcels = left := congrArg LaneCtl.parcels hd
  have hear : ((s.debrisGone l r).lane l).early = (s.lane l).early :=
    (congrArg LaneCtl.early hd :)
  have hrep : (s.debrisGone l r).rep = gone.rep := rfl
  refine ⟨fun hsc => ?_, fun sc hsc => ⟨fun hno => ?_, fun older q younger hsp ho hq hne => ?_⟩⟩
  · have hu : u = s.debrisGone l r := by
      rw [show u = s.debris l r from rfl, State.debris_eq, hsc]
    rw [hu]
    exact ⟨hpar, hear, hrep⟩
  · have hu : u = (s.debrisGone l r).returnScan l sc := by
      rw [show u = s.debris l r from rfl, State.debris_eq, hsc]
    have hnone := find?_eq_none_of_all (k := Parcel.isCandidate) (ps := ((s.debrisGone l r).lane l).parcels)
      (by rw [hpar]; exact hno)
    rw [State.returnScan_of_none sc hnone, hear] at hu
    have hl : ∀ v : State, v.lanes = ((s.debrisGone l r).modLane l fun c => { c with early := some sc }).lanes →
        (v.lane l).parcels = left ∧ (v.lane l).early = some sc := by
      intro v hv
      have : v.lane l = { (s.debrisGone l r).lane l with early := some sc } :=
        (congrArg (Two.get · l) hv).trans (State.modLane_lane_self ..)
      rw [this]
      exact ⟨hpar, rfl⟩
    cases he : (s.lane l).early with
    | none =>
      simp only [he] at hu
      obtain ⟨h1, h2⟩ := hl u (by rw [hu])
      exact ⟨h1, h2, fun _ => by rw [hu]; exact hrep, nofun⟩
    | some old =>
      simp only [he] at hu
      obtain ⟨h1, h2⟩ := hl u (by rw [hu]; rfl)
      refine ⟨h1, h2, nofun, fun old' h => ?_⟩
      cases h
      rw [hu]
      exact State.queueReport_rep_congr hrep _
  · have hu : u = (s.debrisGone l r).returnScan l sc := by
      rw [show u = s.debris l r from rfl, State.debris_eq, hsc]
    rw [State.returnScan_of_some sc (find?_of_split (hpar.trans hsp) ho hq),
      State.modLane_eq (LaneCtl.modParcel_of_split (hpar.trans hsp) hne fun r => { r with scan := some sc })] at hu
    have hl : u.lane l = { (s.debrisGone l r).lane l with
        parcels := older ++ { q with scan := some sc } :: younger } := by
      rw [hu]; exact Two.get_set_self _ _ _
    exact ⟨congrArg LaneCtl.parcels hl, (congrArg LaneCtl.early hl).trans hear, by rw [hu]; exact hrep⟩

/-! ### A good length (R87, R111) -/

/-- The record measured, QUEUED with its length and span. -/
def Parcel.measuredAs (r : Parcel) (len : Nat) (span : Span) : Parcel :=
  { r with length := some len, span := some span, place := .queued }

/-- The lane after a good length, before the early scan is offered. -/
def State.laneMeasured (s : State) (l : Lane) (r : Parcel) (len : Nat) : LaneCtl :=
  { (s.lane l).modParcel r.tag fun q => q.measuredAs len (if len ≤ s.cfgSingle l then .one else .two) with
    gapCount := 0
    gapTest := if s.cfgMinGap l = 0 then none else some r.tag }

theorem State.measured_lane (s : State) (l : Lane) (r : Parcel) (len : Nat) :
    (s.measured l r len).lane l = (s.laneMeasured l r len).offerEarly := State.modLane_lane_self ..

theorem State.measured_laneChange (s : State) (l : Lane) (r : Parcel) (len : Nat) :
    LaneChange l s (s.measured l r len) := s.modLane_laneChange l _

theorem LaneCtl.offerEarly_none {c : LaneCtl} (h : c.early = none) : c.offerEarly = c := by
  simp only [LaneCtl.offerEarly, h]

theorem LaneCtl.offerEarly_kept {c : LaneCtl}
    (h : c.parcels.find? (fun r => r.place == .queued && r.scan.isNone) = none) : c.offerEarly = c := by
  unfold LaneCtl.offerEarly
  rw [h]
  split
  · rename_i e
    cases e
  · rfl

theorem LaneCtl.offerEarly_given {c : LaneCtl} {sc : Scan} {r : Parcel} (h : c.early = some sc)
    (hr : c.parcels.find? (fun r => r.place == .queued && r.scan.isNone) = some r) :
    c.offerEarly = { c.giveScan r.tag sc with early := none } := by
  simp only [LaneCtl.offerEarly, h, hr]

/-- The early scan's offer changes scans and the early slot alone. -/
theorem LaneCtl.offerEarly_eq (c : LaneCtl) : ∃ f : Parcel → Parcel,
    c.offerEarly = { c with parcels := c.parcels.map f, early := c.offerEarly.early } ∧
      ∀ p, f p = p ∨ ∃ sc, f p = { p with scan := some sc } := by
  have keep : c.offerEarly = c → ∃ f : Parcel → Parcel,
      c.offerEarly = { c with parcels := c.parcels.map f, early := c.offerEarly.early } ∧
        ∀ p, f p = p ∨ ∃ sc, f p = { p with scan := some sc } := fun h =>
    ⟨id, by rw [h, List.map_id], fun _ => .inl rfl⟩
  cases he : c.early with
  | none => exact keep (LaneCtl.offerEarly_none he)
  | some sc =>
    cases hr : c.parcels.find? (fun r => r.place == .queued && r.scan.isNone) with
    | none => exact keep (LaneCtl.offerEarly_kept hr)
    | some r =>
      rw [LaneCtl.offerEarly_given he hr]
      refine ⟨_, rfl, fun p => ?_⟩
      by_cases h : p.tag = r.tag
      · exact .inr ⟨sc, if_pos h⟩
      · exact .inl (if_neg h)

/-- Every record with the measured tag is QUEUED with the length and span. -/
theorem State.laneMeasured_mem {s : State} {l : Lane} {r p : Parcel} {len : Nat}
    (hp : p ∈ (s.laneMeasured l r len).parcels) :
    (p.tag ≠ r.tag ∧ p ∈ (s.lane l).parcels) ∨ ∃ q ∈ (s.lane l).parcels, q.tag = r.tag ∧
      p = q.measuredAs len (if len ≤ s.cfgSingle l then .one else .two) := by
  obtain ⟨q, hq, e⟩ := List.mem_map.1 hp
  by_cases h : q.tag = r.tag
  · rw [if_pos h] at e
    exact .inr ⟨q, hq, h, e.symm⟩
  · rw [if_neg h] at e
    exact .inl (e ▸ ⟨h, hq⟩)

theorem State.laneMeasured_self {s : State} {l : Lane} {r : Parcel} (len : Nat) (hr : r ∈ (s.lane l).parcels) :
    r.measuredAs len (if len ≤ s.cfgSingle l then .one else .two) ∈ (s.laneMeasured l r len).parcels :=
  List.mem_map.2 ⟨r, hr, if_pos rfl⟩

/-- A record that stays in the list to the event's end: no record of the measured tag is HOLDING. -/
theorem measured_mem {s : State} {l : Lane} {r q : Parcel} {len : Nat}
    (hq : q ∈ ((s.measured l r len).lane l).parcels) (ht : q.tag = r.tag) :
    q ∈ (((s.measured l r len).settle s false false).lane l).parcels := by
  have hc := s.measured_laneChange l r len
  refine State.settle_mem (State.plansNothing_of_plans hc.plans) (State.leavesNothing_of_txq hc.txq) hq ?_
  intro p hp hpt
  rw [State.measured_lane] at hp
  obtain ⟨f, e, hf⟩ := (s.laneMeasured l r len).offerEarly_eq
  rw [e] at hp
  obtain ⟨p0, hp0, rfl⟩ := List.mem_map.1 hp
  have hkeep : (f p0).tag = p0.tag ∧ (f p0).place = p0.place := by
    rcases hf p0 with e | ⟨sc, e⟩ <;> rw [e] <;> exact ⟨rfl, rfl⟩
  rcases State.laneMeasured_mem hp0 with ⟨hne, -⟩ | ⟨q0, -, -, rfl⟩
  · exact absurd ((hkeep.1.symm.trans hpt).trans ht) hne
  · rw [hkeep.2]
    exact nofun

/-- A good length: the record QUEUED with length and span, the early scan offered. -/
theorem measured_end {s : State} {l : Lane} {r : Parcel} {len : Nat} (hm : (s.lane l).measuring? = some r) :
    let c := s.lane l
    let t := (s.measured l r len).settle s false false
    (∃ q ∈ (t.lane l).parcels, q.tag = r.tag ∧ q.length = some len ∧
      q.span = some (if len ≤ s.cfgSingle l then .one else .two) ∧ q.place = .queued) ∧
    (t.lane l).parcels.length = c.parcels.length ∧ (t.lane l).state = c.state ∧ (t.lane l).gapCount = 0 ∧
    t.rep = s.rep ∧ t.trays = s.trays ∧ t.plans = s.plans ∧ t.txq = s.txq ∧ t.loop = s.loop := by
  intro c t
  have hc := s.measured_laneChange l r len
  have ev := hc.eventEnd
  obtain ⟨f, e, hf⟩ := (s.laneMeasured l r len).offerEarly_eq
  have hl := (s.measured_lane l r len).trans e
  obtain ⟨hr, -, -⟩ := measuring?_some hm
  refine ⟨⟨f (r.measuredAs len (if len ≤ s.cfgSingle l then .one else .two)), measured_mem ?_ ?_, ?_⟩,
    (ev.lanes l).length.trans ?_, (ev.lanes l).state.trans (by rw [hl]; rfl),
    (ev.lanes l).gapCount.trans (by rw [hl]; rfl), ev.rep, hc.kept⟩
  · rw [hl]
    exact List.mem_map_of_mem (State.laneMeasured_self len hr)
  · rcases hf (r.measuredAs len (if len ≤ s.cfgSingle l then .one else .two)) with h | ⟨sc, h⟩ <;> rw [h] <;> rfl
  · rcases hf (r.measuredAs len (if len ≤ s.cfgSingle l then .one else .two)) with h | ⟨sc, h⟩ <;> rw [h] <;>
      exact ⟨rfl, rfl, rfl, rfl⟩
  · rw [hl]
    exact (List.length_map _).trans (List.length_map _)

theorem State.laneMeasured_scans (s : State) (l : Lane) (r : Parcel) (len : Nat) :
    (s.laneMeasured l r len).parcels.map Parcel.scan = (s.lane l).parcels.map Parcel.scan := by
  refine (List.map_map ..).trans (List.map_congr_left fun p _ => ?_)
  dsimp only [Function.comp]
  split <;> rfl

/-- No early scan held: the slot stays empty and no record gains a scan. -/
theorem measured_noEarly {s : State} {l : Lane} {r : Parcel} {len : Nat} (he : (s.lane l).early = none) :
    let t := (s.measured l r len).settle s false false
    (t.lane l).early = none ∧ (t.lane l).parcels.map Parcel.scan = (s.lane l).parcels.map Parcel.scan := by
  intro t
  have ev := (s.measured_laneChange l r len).eventEnd
  have hl := (s.measured_lane l r len).trans (LaneCtl.offerEarly_none (c := s.laneMeasured l r len) he)
  refine ⟨(ev.lanes l).early.trans (by rw [hl]; exact he),
    ((ev.lanes l).map_eq Parcel.scan fun _ => rfl).trans ?_⟩
  rw [hl]
  exact s.laneMeasured_scans l r len

/-- The early scan held goes to the record measured where no other QUEUED record lacks one (R111). -/
theorem measured_early {s : State} {l : Lane} {r : Parcel} {len : Nat} {sc : Scan}
    (hm : (s.lane l).measuring? = some r) (he : (s.lane l).early = some sc) (hr : r.scan = none)
    (ho : ∀ q ∈ (s.lane l).parcels, q.tag ≠ r.tag → q.place = .queued → q.scan ≠ none) :
    let t := (s.measured l r len).settle s false false
    (t.lane l).early = none ∧ ∃ q ∈ (t.lane l).parcels, q.tag = r.tag ∧ q.length = some len ∧ q.place = .queued ∧
      q.scan = some sc := by
  intro t
  have ev := (s.measured_laneChange l r len).eventEnd
  obtain ⟨hmem, -, -⟩ := measuring?_some hm
  have hself := State.laneMeasured_self (s := s) (l := l) len hmem
  obtain ⟨q, hq⟩ : ∃ q, (s.laneMeasured l r len).parcels.find? (fun r => r.place == .queued && r.scan.isNone) =
      some q := by
    rw [← Option.isSome_iff_exists, List.find?_isSome]
    exact ⟨_, hself, by simp [Parcel.measuredAs, hr]⟩
  have hqt : q.tag = r.tag := by
    have hb := List.find?_some hq
    simp only [Bool.and_eq_true, beq_iff_eq, Option.isNone_iff_eq_none] at hb
    rcases State.laneMeasured_mem (List.mem_of_find?_eq_some hq) with ⟨hne, hqm⟩ | ⟨q0, -, ht, rfl⟩
    · exact absurd hb.2 (ho q hqm hne hb.1)
    · exact ht
  have hl := (s.measured_lane l r len).trans (LaneCtl.offerEarly_given (c := s.laneMeasured l r len) he hq)
  rw [hqt] at hl
  refine ⟨(ev.lanes l).early.trans (by rw [hl]),
    { r.measuredAs len (if len ≤ s.cfgSingle l then .one else .two) with scan := some sc },
    measured_mem ?_ rfl, rfl, rfl, rfl, rfl⟩
  rw [hl]
  exact List.mem_map.2 ⟨_, hself, if_pos rfl⟩

/-- The early scan stays in its slot where every QUEUED record has one (log 41). -/
theorem measured_earlyKept {s : State} {l : Lane} {r : Parcel} {len : Nat} {sc : Scan}
    (he : (s.lane l).early = some sc)
    (ho : ∀ q ∈ (s.lane l).parcels, q.tag = r.tag ∨ q.place = .queued → q.scan ≠ none) :
    let t := (s.measured l r len).settle s false false
    (t.lane l).early = some sc ∧ (t.lane l).parcels.map Parcel.scan = (s.lane l).parcels.map Parcel.scan := by
  intro t
  have ev := (s.measured_laneChange l r len).eventEnd
  have hnone : (s.laneMeasured l r len).parcels.find? (fun r => r.place == .queued && r.scan.isNone) = none := by
    rw [List.find?_eq_none]
    intro q hq hb
    simp only [Bool.and_eq_true, beq_iff_eq, Option.isNone_iff_eq_none] at hb
    rcases State.laneMeasured_mem hq with ⟨-, hqm⟩ | ⟨q0, hq0, ht, rfl⟩
    · exact ho q hqm (.inr hb.1) hb.2
    · exact ho q0 hq0 (.inl ht) hb.2
  have hl := (s.measured_lane l r len).trans (LaneCtl.offerEarly_kept hnone)
  refine ⟨(ev.lanes l).early.trans (by rw [hl]; exact he),
    ((ev.lanes l).map_eq Parcel.scan fun _ => rfl).trans ?_⟩
  rw [hl]
  exact s.laneMeasured_scans l r len

/-! ### OVERLENGTH (R87, R88, R99) -/

/-- The block for OVERLENGTH of a measurement that stands at `n`. -/
theorem overlength_end {s : State} {l : Lane} {r : Parcel} (hrest : s.atRest = true)
    (hm : (s.lane l).measuring? = some r)
    (hst : (s.lane l).state = .running ∨ (s.lane l).state = .paused ∨ (s.lane l).state = .blocked) (n : Nat) :
    let c := s.lane l
    let t := ((s.modLane l fun c => { c with measure := n }).takeBlock l .overlength [r.tag] [r.tag]).settle
      s false false
    (t.lane l).state = .blocked ∧ (t.lane l).reason = (if c.state = .blocked then c.reason else .overlength) ∧
    (t.lane l).removal = true ∧ (t.lane l).feed = false ∧ t.outs.drvEn.get l = false ∧ (t.lane l).measure = n ∧
    (∃ q ∈ (t.lane l).parcels, q.tag = r.tag ∧ q.place = .measuring ∧ q.length = r.length ∧
      q.named = some .overlength) ∧
    t.rep = ((s.queueReport (.rejected l r.tag .overlength)).queueReport (.lane l .blocked .overlength)).rep ∧
    t.lane (otherLane l) = s.lane (otherLane l) ∧ t.trays = s.trays ∧ t.plans = s.plans ∧ t.txq = s.txq ∧
    t.loop = s.loop := by
  intro c t
  obtain ⟨hmem, hpl, hnm⟩ := measuring?_some hm
  have hl0 : (s.modLane l fun c => { c with measure := n }).lane l = { c with measure := n } :=
    State.modLane_lane_self ..
  have hst0 : ((s.modLane l fun c => { c with measure := n }).lane l).state = .running ∨
      ((s.modLane l fun c => { c with measure := n }).lane l).state = .paused ∨
      ((s.modLane l fun c => { c with measure := n }).lane l).state = .blocked := by rw [hl0]; exact hst
  have hc := (s.modLane_laneChange l fun c => { c with measure := n }).trans
    (State.takeBlock_laneChange _ l .overlength [r.tag] [r.tag])
  obtain ⟨hb, hrep⟩ := State.takeBlock_lane _ l .overlength [r.tag] [r.tag] hst0
  have hn0 : (s.modLane l fun c => { c with measure := n }).NoTransfer l :=
    (State.noTransfer_of_atRest hrest l).of_eq rfl (by rw [hl0]) (by rw [hl0])
  have hnt := State.takeBlock_noTransfer hn0 hst0 .overlength [r.tag] [r.tag]
  have hlane := hc.settle_lane hnt
  have hfeed : ((s.modLane l fun c => { c with measure := n }).takeBlock l .overlength [r.tag] [r.tag]).feedRuns
      l = false := by
    simp [State.feedRuns, hb]
  rw [hfeed, hb, hl0] at hlane
  have hne : otherLane l ≠ l := by cases l <;> decide
  refine ⟨congrArg LaneCtl.state hlane, congrArg LaneCtl.reason hlane, congrArg LaneCtl.removal hlane,
    congrArg LaneCtl.feed hlane, ?_, congrArg LaneCtl.measure hlane,
    ⟨{ r with named := some .overlength }, ?_, rfl, hpl, rfl, rfl⟩, (hc.eventEnd.rep.trans hrep).trans rfl,
    hc.settle_lane_ne hrest hne, hc.kept⟩
  · rw [State.settle_quiet_drvEn hc.plans hc.txq, hb]
    rfl
  · rw [congrArg LaneCtl.parcels hlane]
    exact List.mem_map.2 ⟨r, hmem, if_pos (by simp [hnm])⟩

/-- The two commands by which a measurement ends in OVERLENGTH. -/
theorem exec_overlength {s : State} {l : Lane} {r : Parcel} {i : Instr} (hr : s.pins.rstLow = false)
    (hm : (s.lane l).measuring? = some r)
    (hi : i = .measurementLimit l ∨
      (i = .entryEyeClear l ∧ 100 ≤ (s.lane l).measure ∧ s.cfgDouble l < (s.lane l).measure)) :
    ∃ v n, (v = s ∨ v = s.setEntryEye l false) ∧ (i = .measurementLimit l → n = 3000) ∧
      exec i s = .next (((v.modLane l fun c => { c with measure := n }).takeBlock l .overlength [r.tag]
        [r.tag]).settle v false false) := by
  rcases hi with rfl | ⟨rfl, h1, h2⟩
  · refine ⟨s, 3000, .inl rfl, fun _ => rfl, ?_⟩
    rw [exec_measurementLimit hr]
    simp only [State.measureLimit, hm, Config.measureLimit]
  · refine ⟨s.setEntryEye l false, (s.lane l).measure, .inr rfl, nofun, ?_⟩
    have e : (s.setEntryEye l false).modLane l (fun c => { c with measure := (s.lane l).measure }) =
        s.setEntryEye l false := by
      refine (State.modLane_eq (d := s.lane l) rfl).trans ?_
      rw [show (s.setEntryEye l false).lanes = s.lanes from rfl, State.lane, Two.set_get]
      rfl
    rw [exec_entryEyeClear hr, hm, e]
    refine congrArg (fun u : State => Host.Outcome.next (u.settle (s.setEntryEye l false) false false)) ?_
    exact (if_neg (Nat.not_lt_of_le h1)).trans (if_neg (Nat.not_le_of_lt h2))

/-- Settles O42: a measurement ends by its count, or at its limit. -/
theorem measurementEndsByLengthOrLimit : Obligations.MeasurementEndsByLengthOrLimit := by
  unfold Obligations.MeasurementEndsByLengthOrLimit
  intro s l hr hrest c
  have hp : (s.setEntryEye l false).atRest = true := State.setEntryEye_atRest hrest l false
  refine ⟨fun r hm => ⟨fun hlt => ?_, fun hlo hhi => ?_, fun i hi hst => ?_⟩, fun hm => ?_⟩
  · have hexec := exec_entryEyeClear (l := l) hr
    rw [hm] at hexec
    have e : (s.setEntryEye l false).endMeasure l r = (s.setEntryEye l false).debris l r := if_pos hlt
    simp only [e] at hexec
    obtain ⟨h1, h2, h3, h4, h5, h6, h7, h8⟩ := debris_end hp hm
    obtain ⟨d1, d2⟩ := debris_scan (s := s.setEntryEye l false) (l := l) (r := r)
    refine ⟨_, hexec, h1, h2, h3, h4, h5, h6, h7, fun hu => ?_⟩
    obtain ⟨a, b, d⟩ := h8 hu
    rw [a, b, d]
    exact ⟨d1, d2⟩
  · have hexec := exec_entryEyeClear (l := l) hr
    rw [hm] at hexec
    have e : (s.setEntryEye l false).endMeasure l r = (s.setEntryEye l false).measured l r c.measure :=
      (if_neg (Nat.not_lt_of_le hlo)).trans (if_pos hhi)
    simp only [e] at hexec
    obtain ⟨h1, h2, h3, h4, h5, h6, h7, h8, h9⟩ := measured_end (s := s.setEntryEye l false) (len := c.measure) hm
    exact ⟨_, hexec, h1, h2, h3, h4, h5, h6, h7, h8, h9, fun he => measured_noEarly he,
      fun sc he => ⟨fun hs ho => measured_early hm he hs ho, fun ho => measured_earlyKept he ho⟩⟩
  · obtain ⟨v, n, hv, hn, hexec⟩ := exec_overlength hr hm hi
    have hvr : v.atRest = true := by rcases hv with rfl | rfl <;> assumption
    have hvl : ∀ m, v.lane m = s.lane m := by rcases hv with rfl | rfl <;> exact fun _ => rfl
    have hvrep : v.rep = s.rep := by rcases hv with rfl | rfl <;> rfl
    have hvk : v.trays = s.trays ∧ v.plans = s.plans ∧ v.txq = s.txq ∧ v.loop = s.loop := by
      rcases hv with rfl | rfl <;> exact ⟨rfl, rfl, rfl, rfl⟩
    obtain ⟨k1, k2, k3, k4⟩ := hvk
    obtain ⟨h1, h2, h3, h4, h5, h6, h7, h8, h9, h10, h11, h12, h13⟩ := overlength_end (s := v) (r := r) hvr
      (by rw [hvl]; exact hm) (by rw [hvl]; exact hst) n
    rw [hvl] at h2 h9
    exact ⟨_, hexec, h1, h2, h3, h4, h5, fun e => h6.trans (hn e), h7,
      h8.trans (State.queueReport_rep_congr (State.queueReport_rep_congr hvrep _) _), h9, h10.trans k1,
      h11.trans k2, h12.trans k3, h13.trans k4⟩
  · rw [exec_entryEyeClear hr]
    simp only [show (s.lane l).measuring? = none from hm]
    rfl

end Sys2Proof.Machine
end

section
/-! SUPPORT. Endings of one lane's plans with room in the queue, planning events of the other lane, and the lanes at
the end of any event. -/

namespace Sys2Proof.Machine

/-! ### Endings with room (R56, R135) -/

/-- The live plans of a lane. -/
def State.live (s : State) (l : Lane) : Nat :=
  (if (s.plan l .s0).isSome then 1 else 0) + (if (s.plan l .s1).isSome then 1 else 0)

theorem State.live_le (s : State) (l : Lane) : s.live l ≤ 2 := by
  unfold State.live
  split <;> split <;> omega

theorem State.live_congr {s t : State} (h : t.plans = s.plans) (l : Lane) : t.live l = s.live l := by
  unfold State.live State.plan
  rw [h]

/-- A plan taken out of its slot leaves one live plan less. -/
theorem State.live_unplan {s : State} {l : Lane} {sl : Slot} {p : Plan} (h : s.plan l sl = some p) :
    (s.unplan l sl p).live l + 1 = s.live l := by
  have h1 := (s.unplan_plan l sl p).1
  have h2 := s.unplan_plan_other l sl p
  unfold State.live
  cases sl with
  | s0 =>
    rw [h1, h, show (s.unplan l .s0 p).plan l .s1 = s.plan l .s1 from h2]
    simp only [Option.isSome_none, Option.isSome_some, Bool.false_eq_true, if_false, if_true]
    omega
  | s1 =>
    rw [h1, h, show (s.unplan l .s1 p).plan l .s0 = s.plan l .s0 from h2]
    simp only [Option.isSome_none, Option.isSome_some, Bool.false_eq_true, if_false, if_true, Nat.add_zero]

theorem State.withdrawClaim_length (s : State) (ref : PlanRef) :
    (s.withdrawClaim ref).txq.length ≤ s.txq.length := by
  unfold State.withdrawClaim
  split
  · exact le_rfl
  · split
    · split
      · rw [State.dropEntry_txq]
        exact (List.eraseIdx_sublist ..).length_le
      · exact (List.length_modify ..).le
    · exact le_rfl

/-- A relation that the ending of those of lane `l`'s plans that meet `G`, and of the later plans they take with them,
respects where the queue has room for their RELEASEs. -/
structure RoomRel (l : Lane) (A : PlanEnding → Prop) (G : State → Plan → Prop) (R : State → State → Prop) :
    Prop where
  refl : ∀ s, R s s
  trans : ∀ {s t u}, R s t → R t u → R s u
  append : ∀ s k sp, R s (s.appendEntry (plainEntry .release k sp))
  unplan : ∀ s sl p, s.plan l sl = some p → G s p → R s (s.unplan l sl p)
  claim : ∀ s ref, R s (s.withdrawClaim ref)
  miss : ∀ s e t, A e → R s (s.countMiss e l t)
  withdraw : A .withdraw
  keep : ∀ {s t p}, R s t → G s p → G t p
  later : ∀ {s p q}, G s p → (s.lane l).rank p.tag < (s.lane l).rank q.tag → G s q

/-- The queue has room for a RELEASE of each live plan of the lane. -/
def State.Roomy (s : State) (l : Lane) : Prop := s.txq.length + s.live l ≤ 8

section
variable {l : Lane} {A : PlanEnding → Prop} {G : State → Plan → Prop} {R : State → State → Prop}

/-- The plan that an ending takes with it is a later one of the lane. -/
theorem State.nextEnding?_some {s : State} {e : PlanEnding} {sl sl' : Slot} {p : Plan}
    (h : s.nextEnding? e l sl p = some sl') {q : Plan} (hq : s.plan l sl' = some q) :
    (s.lane l).rank p.tag < (s.lane l).rank q.tag := by
  unfold State.nextEnding? State.laterSlot? at h
  split at h
  · split at h
    · rename_i hp
      split at h
      · cases h
        rw [hp] at hq
        cases hq
        assumption
      · cases h
    · cases h
  · cases h

theorem RoomRel.place (h : RoomRel l A G R) (n : Nat) {s : State} (k : Nat) (sp : Span)
    (hq : s.txq.length + 1 + s.live l ≤ 8) :
    R s (work n (.place (plainEntry .release k sp)) s) ∧
      (work n (.place (plainEntry .release k sp)) s).Roomy l := by
  have hs : s.Roomy l := by unfold State.Roomy; omega
  cases n with
  | zero => rw [work]; exact ⟨h.refl s, hs⟩
  | succ n =>
    by_cases he : s.line.enabled = true
    · by_cases ht : s.hasTwin (plainEntry .release k sp) = true
      · rw [work, if_neg (by simp [he]), if_pos ht]
        exact ⟨h.refl s, hs⟩
      · rw [work_place_of_room he (by simpa using ht) (by omega)]
        refine ⟨h.append s k sp, ?_⟩
        have e := s.appendEntry_eq (plainEntry .release k sp)
        unfold State.Roomy
        rw [State.live_congr (by rw [e]), congrArg State.txq e, List.length_append]
        exact hq
    · rw [work, if_pos (by simpa using he)]
      exact ⟨h.refl s, hs⟩

theorem RoomRel.work (h : RoomRel l A G R) : ∀ (n : Nat) (e : PlanEnding) (sl : Slot) (s : State), A e →
    s.Roomy l → (∀ p, s.plan l sl = some p → G s p) → R s (work n (.ending e l sl) s) ∧ (work n (.ending e l sl) s).Roomy l
  | 0, e, sl, s, _, hs, _ => by rw [Machine.work]; exact ⟨h.refl s, hs⟩
  | n + 1, e, sl, s, ha, hs, hg => by
    rw [Machine.work]
    split
    · exact ⟨h.refl s, hs⟩
    · rename_i p hp
      have h1 := h.unplan s sl p hp (hg p hp)
      have hlive := State.live_unplan hp
      have htx := (s.unplan_txq l sl p).1
      generalize s.unplan l sl p = u at h1 hlive htx
      have h2 : R s (if p.state = .tentative then u.withdrawClaim { lane := l, tag := p.tag }
          else Machine.work n (.place (plainEntry .release p.target p.span)) u) ∧
          (if p.state = .tentative then u.withdrawClaim { lane := l, tag := p.tag }
          else Machine.work n (.place (plainEntry .release p.target p.span)) u).Roomy l := by
        unfold State.Roomy at hs
        split
        · refine ⟨h.trans h1 (h.claim _ _), ?_⟩
          have := u.withdrawClaim_length { lane := l, tag := p.tag }
          have hl := State.live_congr (s := u) (t := u.withdrawClaim { lane := l, tag := p.tag })
            (by rw [State.withdrawClaim_eq]) l
          have ht := congrArg List.length htx
          unfold State.Roomy
          omega
        · obtain ⟨k1, k2⟩ := h.place n (s := u) p.target p.span (by rw [htx]; omega)
          exact ⟨h.trans h1 k1, k2⟩
      dsimp only
      generalize (if p.state = .tentative then u.withdrawClaim { lane := l, tag := p.tag }
          else Machine.work n (.place (plainEntry .release p.target p.span)) u) = v at h2
      have h3 : R s (v.countMiss e l p.tag) ∧ (v.countMiss e l p.tag).Roomy l := by
        refine ⟨h.trans h2.1 (h.miss v e p.tag ha), ?_⟩
        unfold State.Roomy
        rw [State.live_congr (by rw [State.countMiss_eq]), congrArg State.txq (v.countMiss_eq e l p.tag)]
        exact h2.2
      split
      · rename_i sl' hn
        obtain ⟨k1, k2⟩ := h.work n .withdraw sl' _ h.withdraw h3.2 fun q hq =>
          h.later (h.keep h3.1 (hg p hp)) (State.nextEnding?_some hn hq)
        exact ⟨h.trans h3.1 k1, k2⟩
      · exact h3

theorem RoomRel.endPlan (h : RoomRel l A G R) {s : State} {e : PlanEnding} (ha : A e) (hs : s.Roomy l) (sl : Slot)
    (hg : ∀ p, s.plan l sl = some p → G s p) :
    R s (s.endPlan e l sl) ∧ (s.endPlan e l sl).Roomy l := h.work _ e sl s ha hs hg

theorem RoomRel.withdrawSlot (h : RoomRel l A G R) {s : State} (hs : s.Roomy l) (sl : Slot)
    (hg : ∀ p, s.plan l sl = some p → p.state ≠ .launched → G s p) :
    R s (s.withdrawSlot l sl) ∧ (s.withdrawSlot l sl).Roomy l := by
  unfold State.withdrawSlot
  split
  · rename_i p hp
    split
    · exact ⟨h.refl s, hs⟩
    · rename_i hn
      exact h.endPlan h.withdraw hs sl fun q hq => hg q hq (by rw [hp] at hq; cases hq; exact hn)
  · exact ⟨h.refl s, hs⟩

theorem RoomRel.withdrawSlots (h : RoomRel l A G R) (slots : List Slot) : ∀ {s : State}, s.Roomy l →
    (∀ sl p, s.plan l sl = some p → p.state ≠ .launched → G s p) →
    R s (s.withdrawSlots l slots) ∧ (s.withdrawSlots l slots).Roomy l := by
  unfold State.withdrawSlots
  induction slots with
  | nil => exact fun hs _ => ⟨h.refl _, hs⟩
  | cons sl sls ih =>
    intro s hs hg
    obtain ⟨h1, h2⟩ := h.withdrawSlot hs sl (hg sl)
    obtain ⟨k1, k2⟩ := ih h2 fun sl' p hp hn => by
      rcases (planEnds_workRel.withdrawSlot s l sl).plans l sl' with e | e
      · exact h.keep h1 (hg sl' p (e.symm.trans hp) hn)
      · rw [e] at hp
        cases hp
    exact ⟨h.trans h1 k1, k2⟩

end

/-! ### A planning event of the other lane -/

/-- Lane `l` and its plans stay whole. -/
def LaneUntouched (l : Lane) (s t : State) : Prop :=
  t.lane l = s.lane l ∧ ∀ sl, t.plan l sl = s.plan l sl

theorem LaneUntouched.refl (l : Lane) (s : State) : LaneUntouched l s s := ⟨rfl, fun _ => rfl⟩

theorem LaneUntouched.trans {l : Lane} {s t u : State} (h : LaneUntouched l s t) (k : LaneUntouched l t u) :
    LaneUntouched l s u := ⟨k.1.trans h.1, fun sl => (k.2 sl).trans (h.2 sl)⟩

theorem LaneUntouched.of_same {l : Lane} {s t : State} (hl : t.lanes = s.lanes) (hp : t.plans = s.plans) :
    LaneUntouched l s t :=
  ⟨congrArg (Two.get · l) hl, fun sl => congrArg (fun f => f.get l sl) hp⟩

/-- What a change of the other lane and of its plans leaves. -/
theorem LaneUntouched.of_other {l m : Lane} (h : l ≠ m) {s t : State} {d : LaneCtl} {sl : Slot} {p : Option Plan}
    (hl : t.lanes = s.lanes ∨ t.lanes = s.lanes.set m d) (hp : t.plans = s.plans ∨ t.plans = s.plans.set m sl p) :
    LaneUntouched l s t := by
  refine ⟨?_, fun k => ?_⟩
  · rcases hl with e | e
    · exact congrArg (Two.get · l) e
    · exact (congrArg (Two.get · l) e).trans (Two.get_set_ne _ _ h)
  · rcases hp with e | e
    · exact congrArg (fun f => f.get l k) e
    · exact (congrArg (fun f => f.get l k) e).trans (Four.get_set_ne _ _ fun x => h (Prod.ext_iff.1 x).1)

theorem State.addMiss_laneChange (s : State) (m : Lane) (t : Tag) : LaneChange m s (s.addMiss m t) := by
  have h1 : LaneChange m s (s.modParcel m t fun r => { r with misses := r.misses + 1 }) :=
    s.modLane_laneChange m _
  unfold State.addMiss
  dsimp only
  split
  · split
    · exact h1.trans (State.takeBlock_laneChange _ m _ _ _)
    · exact h1
  · exact h1

theorem State.countMiss_laneChange (s : State) (e : PlanEnding) (m : Lane) (t : Tag) :
    LaneChange m s (s.countMiss e m t) := by
  unfold State.countMiss
  split
  · exact s.addMiss_laneChange m t
  · exact .refl m s

theorem laneUntouched_roomRel {l m : Lane} (h : l ≠ m) : RoomRel m (fun _ => True) (fun _ _ => True) (LaneUntouched l) where
  refl := .refl l
  trans := .trans
  append := fun s k sp => .of_same (by rw [State.appendEntry_eq]) (by rw [State.appendEntry_eq])
  unplan := fun s sl p _ _ => by
    refine LaneUntouched.of_other h (sl := sl) (p := none)
      (d := (s.lane m).modParcel p.tag fun r => { r with planSlot := none }) (.inr ?_) (.inr ?_)
    · rw [State.unplan_eq]
    · rw [State.unplan_eq]
  claim := fun s ref => .of_same (by rw [State.withdrawClaim_eq]) (by rw [State.withdrawClaim_eq])
  miss := fun s e t _ => by
    have hc := s.countMiss_laneChange e m t
    exact ⟨hc.lane_ne h, fun sl => congrArg (fun f => f.get l sl) hc.plans⟩
  withdraw := trivial
  keep := fun _ _ => trivial
  later := fun _ _ => trivial

theorem State.takeTrigger_untouched {l m : Lane} (h : l ≠ m) {s : State} {sl : Slot} {p : Plan}
    (hp : s.plan m sl = some p) (ht : p.state = .tentative) (hs : s.Roomy m) :
    LaneUntouched l s (s.takeTrigger m sl) := by
  have hp' : (s.setTrig (s.trig.set m sl none)).plan m sl = some p := hp
  simp only [State.takeTrigger, hp', ht]
  exact LaneUntouched.trans (t := s.setTrig (s.trig.set m sl none)) (.of_same rfl rfl)
    ((laneUntouched_roomRel h).endPlan trivial (s := s.setTrig (s.trig.set m sl none)) hs sl
      fun _ _ => trivial).1

theorem State.arm_untouched {l m : Lane} (h : l ≠ m) {s : State} {sl : Slot} {p : Plan}
    (hp : s.plan m sl = some p) (ht : p.state = .tentative) (hs : s.Roomy m) (position : Nat) :
    LaneUntouched l s (s.arm m sl position) := by
  have h1 : LaneUntouched l s (s.setTrig (s.trig.set m sl (some position))) := .of_same rfl rfl
  unfold State.arm
  dsimp only
  split
  · split
    · exact h1.trans (State.takeTrigger_untouched h (s := s.setTrig (s.trig.set m sl (some position))) hp ht hs)
    · exact h1
  · exact .refl l s

theorem State.ownTrays_trays (s : State) (ref : PlanRef) (k : Nat) (sp : Span) :
    s.ownTrays ref k sp = { s with trays := (s.ownTrays ref k sp).trays } := by
  cases sp <;> rfl

theorem State.makePlan_untouched {l m : Lane} (h : l ≠ m) (s : State) (sl : Slot) (t : Tag) (k : Nat) (sp : Span)
    (lead : Nat) (hq : s.txq.length + 3 ≤ 8) : LaneUntouched l s (s.makePlan m sl t k sp lead) := by
  unfold State.makePlan
  dsimp only
  have ho := s.ownTrays_trays { lane := m, tag := t } k sp
  generalize s.ownTrays { lane := m, tag := t } k sp = a at ho
  generalize hu : a.appendEntry _ = u
  rw [State.appendEntry_eq] at hu
  have h1 : LaneUntouched l s u := .of_same (by rw [← hu, ho]) (by rw [← hu, ho])
  have htx : u.txq.length ≤ 6 := by
    rw [← hu, ho]
    simp only [List.length_append, List.length_singleton]
    omega
  have h2 : LaneUntouched l u ((u.setPlan m sl (some (s.newPlan t k sp lead))).modParcel m t fun r =>
      { r with planSlot := some sl }) := .of_other h (.inr rfl) (.inr rfl)
  refine (h1.trans h2).trans (State.arm_untouched h (p := s.newPlan t k sp lead) ?_ rfl ?_ _)
  · exact u.plans.get_set_self m sl _
  · have := ((u.setPlan m sl (some (s.newPlan t k sp lead))).modParcel m t fun r =>
      { r with planSlot := some sl }).live_le m
    unfold State.Roomy
    exact (Nat.add_le_add htx this).trans (by decide)

theorem State.grants_room {s : State} {k : Nat} {sp : Span} (h : s.grants k sp = true) :
    s.txq.length + 3 ≤ 8 := by
  simp only [State.grants, Bool.and_eq_true, decide_eq_true_eq] at h
  exact h.1.2

theorem State.suspend_untouched (l m : Lane) (s : State) : LaneUntouched l s (s.suspend m) := by
  unfold State.suspend
  split <;> exact .of_same rfl rfl

/-- A lane that plans leaves the other lane and its plans whole. -/
theorem planParcels_untouched {l m : Lane} (h : l ≠ m) : ∀ (rs : List Parcel) (s : State),
    LaneUntouched l s (planParcels rs m s).1
  | [], s => .refl l s
  | r :: rest, s => by
    rw [planParcels]
    dsimp only
    split
    · exact s.suspend_untouched l m
    split
    · exact .refl l s
    rename_i k _
    split
    · rename_i hg
      split
      · exact .refl l s
      · have h1 := fun sl => s.makePlan_untouched h sl r.tag k (r.span.getD .one) (s.leadOf m r)
          (State.grants_room hg)
        split
        · exact (h1 _).trans (planParcels_untouched h rest _)
        · exact h1 _
    · exact .refl l s

/-- A lane that takes no part in a planning event stays whole. -/
theorem State.planningEvent_untouched {s : State} {l : Lane} (h : s.takesPart l = false) :
    LaneUntouched l s s.planningEvent := by
  unfold State.planningEvent
  split
  · cases l with
    | l0 =>
      rw [h]
      cases s.takesPart .l1
      · exact .refl _ s
      · exact planParcels_untouched (by decide) _ _
    | l1 =>
      rw [h]
      cases s.takesPart .l0
      · exact .refl _ s
      · exact planParcels_untouched (by decide) _ _
  · exact .refl _ s

/-! ### The lanes at the end of any event -/

/-- Where the station is not LEAVING an event ends by transfers, perhaps a planning event, and the feeds. -/
theorem State.settle_work (s before : State) (planning test : Bool) (h : s.table.station ≠ .leaving) :
    ∃ u, (u = s.startTransfers ∨ u = s.startTransfers.planningEvent) ∧ PlanWork s.startTransfers u ∧
      EventEnd u (s.settle before planning test) ∧
      ∀ l, (s.settle before planning test).lane l = { u.lane l with feed := u.feedRuns l } := by
  obtain ⟨u, w, hu, e⟩ := s.settle_cases before planning test
  have ht : u.updateFeeds.table.station = s.table.station := by
    rw [State.updateFeeds_eq]
    exact congrArg ConfigTable.station
      (w.table.trans (s.startTransfers_keep State.table fun _ _ => rfl))
  have hd : u.updateFeeds.leavingDone = false := by simp [State.leavingDone, ht, h]
  refine ⟨u, hu, w, ?_, fun l => ?_⟩
  · rw [e]
    exact State.finish_eventEnd _ _ _ (.inr hd)
  · rw [e, State.finish_eq _ _ _ (.inr hd), ← u.updateFeeds_lane l]
    exact congrArg (Two.get · l) (State.retakeAspects_lanes _)

/-- A lane that can neither begin a transfer nor offer a parcel stays, but for its feed, and its plans stay. -/
theorem State.settle_untouched {s before : State} {planning test : Bool} (h : s.table.station ≠ .leaving) {l : Lane}
    (hn : s.NoTransfer l) (ho : s.offered l = []) :
    let t := s.settle before planning test
    t.lane l = { s.lane l with feed := s.feedRuns l } ∧ ∀ sl, t.plan l sl = s.plan l sl := by
  intro t
  obtain ⟨u, hu, w, ev, hl⟩ := s.settle_work before planning test h
  have hs := State.startTransfers_lane hn
  have hk : LaneUntouched l s u := by
    have h1 : LaneUntouched l s s.startTransfers :=
      ⟨hs, fun sl => congrArg (fun f => f.get l sl) (s.startTransfers_keep State.plans fun _ _ => rfl)⟩
    rcases hu with rfl | rfl
    · exact h1
    · exact h1.trans (State.planningEvent_untouched
        (State.takesPart_of_offered_nil (State.startTransfers_offered_nil ho)))
  have hon : u.online = s.online := by
    rw [State.online, w.table]
    exact s.startTransfers_keep State.online fun _ _ => rfl
  refine ⟨(hl l).trans ?_, fun sl => (ev.plan l sl).trans (hk.2 sl)⟩
  rw [hk.1, State.feedRuns_congr hon hk.1]

/-! ### Plans ended one slot after another -/

theorem State.mem_slotsByAge {s : State} {l : Lane} {sl : Slot} {p : Plan} (h : s.plan l sl = some p) :
    sl ∈ s.slotsByAge l := by
  unfold State.slotsByAge
  cases sl with
  | s0 =>
    rw [h]
    cases s.plan l .s1 with
    | none => simp
    | some q => dsimp only; split <;> simp
  | s1 =>
    rw [h]
    cases s.plan l .s0 with
    | none => simp
    | some q => dsimp only; split <;> simp

/-- What a slot holds is a LAUNCHED plan, or nothing. -/
def State.OnlyLaunched (s : State) (l : Lane) (sl : Slot) : Prop := ∀ p, s.plan l sl = some p → p.state = .launched

theorem PlanEnds.onlyLaunched {s t : State} (h : PlanEnds s t) {l : Lane} {sl : Slot} (ho : s.OnlyLaunched l sl) :
    t.OnlyLaunched l sl := fun p hp => by
  rcases h.plans l sl with e | e
  · exact ho p (e ▸ hp)
  · rw [e] at hp; cases hp

theorem State.withdrawSlot_onlyLaunched (s : State) (l : Lane) (sl : Slot) :
    (s.withdrawSlot l sl).OnlyLaunched l sl := by
  intro p hp
  unfold State.withdrawSlot at hp
  split at hp
  · rename_i q hq
    split at hp
    · rename_i hl
      rw [hq] at hp
      cases hp
      exact hl
    · rw [State.endPlan_plan] at hp
      cases hp
  · rename_i hq
    rw [hq] at hp
    cases hp

theorem State.withdrawSlots_onlyLaunched (l : Lane) (slots : List Slot) : ∀ (s : State) (sl : Slot),
    (sl ∈ slots ∨ s.OnlyLaunched l sl) → (s.withdrawSlots l slots).OnlyLaunched l sl := by
  induction slots with
  | nil => exact fun s sl h => h.resolve_left List.not_mem_nil
  | cons k ks ih =>
    intro s sl h
    refine ih (s.withdrawSlot l k) sl ?_
    by_cases e : sl = k
    · subst e
      exact .inr (s.withdrawSlot_onlyLaunched l sl)
    · rcases h with h | h
      · exact .inl ((List.mem_cons.1 h).resolve_left e)
      · exact .inr ((planEnds_workRel.withdrawSlot s l k).onlyLaunched h)

/-- After the withdrawal of a lane's unlaunched plans, in any order, only LAUNCHED ones are left. -/
theorem State.withdrawSlots_all {s : State} {l : Lane} {slots : List Slot}
    (h : ∀ sl, sl ∈ s.slotsByAge l → sl ∈ slots) (sl : Slot) : (s.withdrawSlots l slots).OnlyLaunched l sl := by
  refine State.withdrawSlots_onlyLaunched l slots s sl ?_
  cases hp : s.plan l sl with
  | none => exact .inr fun p h => by rw [hp] at h; cases h
  | some p => exact .inl (h sl (State.mem_slotsByAge hp))

theorem State.withdrawAll_onlyLaunched (s : State) (l : Lane) (sl : Slot) : s.withdrawAll.OnlyLaunched l sl := by
  unfold State.withdrawAll
  cases l with
  | l0 =>
    exact (planEnds_workRel.withdrawSlots .l1 _ _).onlyLaunched (State.withdrawSlots_all (fun _ h => h) sl)
  | l1 => exact State.withdrawSlots_all (fun _ h => h) sl

end Sys2Proof.Machine
end

section
/-! PROOF. The timeouts of a lane (R92, R97, R102). -/

open Sys2Proof Sys2Proof.Machine

namespace Sys2Proof.Machine

/-- One plan of the lane ends (R97, R102). -/
def State.endSlot (s : State) (l : Lane) (sl : Slot) : State :=
  match s.plan l sl with
  | some p => s.endPlan (if p.state = .launched then .abandon else .withdraw) l sl
  | none => s

theorem State.endLanePlans_eq (s : State) (l : Lane) :
    s.endLanePlans l = (s.freeOrder (s.slotsByAge l)).foldl (fun s sl => s.endSlot l sl)
      (s.afterOrder (s.slotsByAge l)) := rfl

theorem WorkRel.endSlot {A : PlanEnding → Prop} {R : State → State → Prop} (h : WorkRel A R) (ha : A .abandon)
    (s : State) (l : Lane) (sl : Slot) : R s (s.endSlot l sl) := by
  unfold State.endSlot
  split
  · refine h.endPlan s ?_ l sl
    split
    · exact ha
    · exact h.withdraw
  · exact h.refl s

theorem WorkRel.endSlots {A : PlanEnding → Prop} {R : State → State → Prop} (h : WorkRel A R) (ha : A .abandon)
    (l : Lane) (slots : List Slot) : ∀ s, R s (slots.foldl (fun s sl => s.endSlot l sl) s) := by
  induction slots with
  | nil => exact h.refl
  | cons sl sls ih => exact fun s => h.trans (h.endSlot ha s l sl) (ih _)

theorem State.endSlot_plan (s : State) (l : Lane) (sl : Slot) : (s.endSlot l sl).plan l sl = none := by
  unfold State.endSlot
  split
  · exact State.endPlan_plan _ _ _ _
  · assumption

theorem endSlots_plan (l : Lane) (slots : List Slot) : ∀ (s : State) (sl : Slot),
    (sl ∈ slots ∨ s.plan l sl = none) → (slots.foldl (fun s sl => s.endSlot l sl) s).plan l sl = none := by
  induction slots with
  | nil => exact fun s sl h => h.resolve_left List.not_mem_nil
  | cons k ks ih =>
    intro s sl h
    refine ih (s.endSlot l k) sl ?_
    by_cases e : sl = k
    · subst e
      exact .inr (s.endSlot_plan l sl)
    · rcases h with h | h
      · exact .inl ((List.mem_cons.1 h).resolve_left e)
      · exact .inr ((planEnds_workRel.endSlot trivial s l k).plan_none h)

/-- Every plan of the lane ends. -/
theorem State.endLanePlans_plan (s : State) (l : Lane) (sl : Slot) : (s.endLanePlans l).plan l sl = none := by
  rw [State.endLanePlans_eq]
  refine endSlots_plan l _ _ sl ?_
  rw [State.afterOrder_eq]
  cases hp : s.plan l sl with
  | none => exact .inr hp
  | some p => exact .inl ((s.freeOrder_perm _).mem_iff.2 (State.mem_slotsByAge hp))

/-- The endings free the parcels and leave all else of the lanes. -/
theorem State.endLanePlans_lane (s : State) (l m : Lane) :
    LaneUnplanned (s.lane m) ((s.endLanePlans l).lane m) := by
  have h := laneUnplanned_workRel.endSlots (by decide) l (s.freeOrder (s.slotsByAge l))
    (s.afterOrder (s.slotsByAge l)) m
  rw [State.endLanePlans_eq]
  rw [State.afterOrder_eq] at h ⊢
  exact h

theorem exec_transferTimeout {s : State} {l : Lane} (hr : s.pins.rstLow = false)
    (ht : (s.lane l).transfer.isSome = true) :
    exec (.transferTimeout l) s = .next ((s.enterFault l .transferTimeout).settle s false false) := by
  change execTransferTimeout l s = _
  unfold execTransferTimeout
  refine (State.unlessHeld_of_rstHigh hr _).trans ?_
  rw [if_pos ht]

theorem exec_mergeTimeout {s : State} {l : Lane} (hr : s.pins.rstLow = false)
    (ht : (s.lane l).launchRuns = true) :
    exec (.mergeTimeout l) s = .next ((s.enterFault l .mergeTimeout).settle s false true) := by
  change execMergeTimeout l s = _
  unfold execMergeTimeout
  refine (State.unlessHeld_of_rstHigh hr _).trans ?_
  rw [if_pos ht]

/-- What a lane is left as by FAULT, before its feeds are taken again. -/
theorem State.enterFault_lane (s : State) (l : Lane) (reason : LaneReason) :
    let c := (s.enterFault l reason).lane l
    c.state = .fault ∧ c.reason = reason ∧ c.removal = true ∧ c.feed = false ∧ c.transfer = none ∧
      c.launchRuns = false := by
  intro c
  have hc : c = { ((s.modLane l LaneCtl.haltAll).endLanePlans l).lane l with
      state := .fault, reason := reason, removal := true } := State.enterLane_lane_self _ l .fault reason
  obtain ⟨f, hf, -⟩ := (s.modLane l LaneCtl.haltAll).endLanePlans_lane l l
  rw [State.modLane_lane_self] at hf
  rw [hc, hf]
  refine ⟨rfl, rfl, rfl, rfl, rfl, ?_⟩
  change LaneCtl.launchRuns { (s.lane l).haltAll with parcels := _, state := _, reason := _, removal := _ } = _
  cases h : (s.lane l).launch <;> simp [LaneCtl.launchRuns, LaneCtl.haltAll, h]

theorem State.enterFault_planWork (s : State) (l : Lane) (reason : LaneReason) :
    (s.enterFault l reason).table = s.table ∧ (s.enterFault l reason).loop = s.loop ∧
      (s.enterFault l reason).doubt = s.doubt := by
  have w := (s.modLane l LaneCtl.haltAll).endLanePlans_planWork l
  unfold State.enterFault
  rw [State.enterLane_eq]
  exact ⟨w.table, w.loop, w.doubt⟩

/-- What the end of an event leaves of a lane in FAULT, its belts stopped. -/
theorem State.settle_fault {u : State} {l : Lane} (before : State) (planning test : Bool)
    (hst : u.table.station ≠ .leaving) (c1 : (u.lane l).state = .fault) (c4 : (u.lane l).transfer = none)
    (c5 : (u.lane l).launchRuns = false) :
    let t := u.settle before planning test
    t.lane l = { u.lane l with feed := false } ∧ t.outs.drvHd.get l = false ∧ t.outs.drvLn.get l = false ∧
      t.outs.drvEn.get l = false ∧ t.outs.lampRemove.get l = (u.lane l).removal ∧
      ∀ sl, t.plan l sl = u.plan l sl := by
  intro t
  obtain ⟨hl, hp⟩ : t.lane l = _ ∧ _ := State.settle_untouched (before := before) (planning := planning)
    (test := test) hst (l := l)
    (by rw [State.noTransfer_iff, State.transferReady?]; simp [c1])
    (by rw [State.offered]; simp [c1])
  have houts : t.outs = t.outputs := u.settle_outs before planning test
  have hfeed : u.feedRuns l = false := by simp [State.feedRuns, c1]
  rw [hfeed] at hl
  have e1 : (t.lane l).state = .fault := (congrArg LaneCtl.state hl).trans c1
  have e2 : (t.lane l).feed = false := congrArg LaneCtl.feed hl
  have e3 : (t.lane l).transfer = none := (congrArg LaneCtl.transfer hl).trans c4
  have e4 : (t.lane l).launchRuns = false := (LaneCtl.launchRuns_congr (by rw [hl])).trans c5
  refine ⟨hl, ?_, ?_, ?_, ?_, hp⟩
  · refine (congrArg (fun o => o.drvHd.get l) houts).trans ((perLane_get t.holdBeltRuns l).trans ?_)
    simp [State.holdBeltRuns, e2, e3]
  · refine (congrArg (fun o => o.drvLn.get l) houts).trans ((perLane_get t.launchBeltRuns l).trans ?_)
    simp [State.launchBeltRuns, e3, e4]
  · refine (congrArg (fun o => o.drvEn.get l) houts).trans ((perLane_get t.entryBeltRuns l).trans ?_)
    simp [State.entryBeltRuns, e1]
  · refine (congrArg (fun o => o.lampRemove.get l) houts).trans ((perLane_get (fun l => (t.lane l).removal) l).trans ?_)
    exact (congrArg LaneCtl.removal hl :)

theorem State.enterFault_plan (s : State) (l : Lane) (reason : LaneReason) (sl : Slot) :
    (s.enterFault l reason).plan l sl = none := by
  have := (s.modLane l LaneCtl.haltAll).endLanePlans_plan l sl
  unfold State.enterFault
  rw [State.enterLane_eq]
  exact this

/-- The end of an event that took a lane to FAULT. -/
theorem fault_end {s : State} {l : Lane} {reason : LaneReason} {test : Bool} (hst : s.table.station ≠ .leaving) :
    let t := (s.enterFault l reason).settle s false test
    (t.lane l).state = .fault ∧ (t.lane l).reason = reason ∧ (t.lane l).removal = true ∧
      (t.lane l).feed = false ∧ (t.lane l).transfer = none ∧ (t.lane l).launchRuns = false ∧
      t.outs.drvHd.get l = false ∧ t.outs.drvLn.get l = false ∧ t.outs.drvEn.get l = false ∧
      t.outs.lampRemove.get l = true ∧ t.loop = s.loop ∧ t.doubt = s.doubt ∧ t.table = s.table ∧
      (s.mayPlan = false → ∀ sl, t.plan l sl = none) := by
  intro t
  obtain ⟨htab, hloop, hdoubt⟩ := s.enterFault_planWork l reason
  have hst' : (s.enterFault l reason).table.station ≠ .leaving := by rw [htab]; exact hst
  obtain ⟨c1, c2, c3, -, c4, c5⟩ := s.enterFault_lane l reason
  obtain ⟨hl, o1, o2, o3, o4, hp⟩ := State.settle_fault s false test hst' c1 c4 c5
  obtain ⟨ht, hd⟩ := State.settle_table_doubt (s.enterFault l reason) s false test hst'
  exact ⟨(congrArg LaneCtl.state hl).trans c1, (congrArg LaneCtl.reason hl).trans c2,
    (congrArg LaneCtl.removal hl).trans c3, congrArg LaneCtl.feed hl, (congrArg LaneCtl.transfer hl).trans c4,
    (LaneCtl.launchRuns_congr (by rw [hl])).trans c5, o1, o2, o3, o4.trans c3,
    ((s.enterFault l reason).settle_kept s false test).loop.trans hloop, hd.trans hdoubt, ht.trans htab,
    fun _ sl => (hp sl).trans (s.enterFault_plan l reason sl)⟩

/-- Settles O45: both timeouts come to `enterFault`. -/
theorem timeoutsFaultTheLane : Obligations.TimeoutsFaultTheLane := by
  unfold Obligations.TimeoutsFaultTheLane
  intro s l c reason hr hst hc
  rcases hc with ⟨rfl, rfl, ht⟩ | ⟨rfl, rfl, ht⟩
  · exact ⟨_, exec_transferTimeout hr ht, fault_end hst⟩
  · exact ⟨_, exec_mergeTimeout hr ht, fault_end hst⟩

end Sys2Proof.Machine
end

section
/-! PROOF. The merge completion (R94, R95, R136, R165). -/

open Sys2Proof Sys2Proof.Machine

namespace Sys2Proof.Machine

/-! ### Events that end LEAVING -/

/-- Where LEAVING is tested and done, the event ends with the station's return. -/
theorem State.settle_leaving {s before : State} {planning test : Bool} (hp : s.PlansNothing before planning)
    (ht : (test || queueEmptied before s) = true) (hd : s.leavingDone = true) :
    s.settle before planning test = s.startTransfers.updateFeeds.endLeaving.retakeAspects.drive := by
  rw [← State.startTransfers_leavingDone] at hd
  rw [← State.startTransfers_queueEmptied] at ht
  rw [State.settle_of_plansNothing hp, State.finish]
  rw [if_pos ht, State.testLeaving, if_pos hd]

/-- What such an event leaves of the table, the line, the queue and the reports. -/
theorem State.settle_leaving_kept {s before : State} {planning test : Bool} (hp : s.PlansNothing before planning)
    (ht : (test || queueEmptied before s) = true) (hd : s.leavingDone = true) :
    let t := s.settle before planning test
    t.table = { s.table with station := .configured } ∧ t.txq = s.txq ∧ t.line = s.line.disable ∧
      RepGrows s.rep t.rep ∧ t.plans = .all none ∧ t.loop = s.loop ∧ t.port = s.port := by
  rw [State.settle_leaving hp ht hd]
  have e := s.startTransfers.updateFeeds.endLeaving_eq
  have hg := s.startTransfers.updateFeeds.lanesLeft_grows
  have hk : ∀ {α : Type} (g : State → α), (∀ (u : State) v, g (u.setLanes v) = g u) →
      g s.startTransfers.updateFeeds = g s := fun g hg => by
    rw [State.updateFeeds_eq, hg]
    exact s.startTransfers_keep g hg
  generalize s.startTransfers.updateFeeds = v at e hg hk
  generalize v.endLeaving = u at e
  refine ⟨?_, ?_, ?_, ?_, ?_, ?_, ?_⟩
  · change u.table = _
    rw [e, hk State.table fun _ _ => rfl]
  · change u.txq = _
    rw [e, hk State.txq fun _ _ => rfl]
  · change u.line = _
    rw [e, hk State.line fun _ _ => rfl]
  · change RepGrows _ u.rep
    rw [e, ← hk State.rep fun _ _ => rfl]
    exact hg
  · change u.plans = _
    rw [e]
  · change u.loop = _
    rw [e, hk State.loop fun _ _ => rfl]
  · change u.port = _
    rw [e, hk State.port fun _ _ => rfl]

/-! ### The completion -/

theorem exec_mergeEyeClear {s : State} {l : Lane} {e : Launch} {r : Parcel} (hr : s.pins.rstLow = false)
    (he : (s.lane l).launch = some e) (hm : e.mergeSeen = true) (ha : e.aborted = false)
    (hp : (s.lane l).at? .launching = some r) :
    exec (.mergeEyeClear l) s =
      .next (((s.setMergeEye l false).mergeComplete l e r).settle (s.setMergeEye l false) true true) := by
  change execMergeEyeClear l s = _
  unfold execMergeEyeClear
  refine (State.unlessHeld_of_rstHigh (s := s.setMergeEye l false) hr _).trans ?_
  have h1 : ((s.setMergeEye l false).lane l).launch = some e := he
  have h2 : ((s.setMergeEye l false).lane l).at? .launching = some r := hp
  simp only [h1, h2, hm, ha, Bool.not_false, Bool.and_self, if_true]

/-- The lane without the record merged and its launch. -/
def LaneCtl.merged (c : LaneCtl) (t : Tag) : LaneCtl := { c.dropParcel t with launch := none }

/-- A lane that offered nothing offers nothing after a merge. -/
theorem merged_offered {s u : State} {l : Lane} {t : Tag} (h : ∀ m, s.offered m = []) (ht : u.table = s.table)
    (hl : u.lanes = s.lanes.set l ((s.lane l).merged t)) (m : Lane) : u.offered m = [] := by
  have ho : u.online = s.online := by rw [State.online, ht]; rfl
  have hm := h m
  unfold State.offered at hm ⊢
  by_cases e : m = l
  · subst e
    have hu : u.lane m = (s.lane m).merged t := (congrArg (Two.get · m) hl).trans (Two.get_set_self _ _ _)
    rw [ho, hu]
    split
    · rename_i hc
      rw [if_pos (by exact hc)] at hm
      rw [List.filter_eq_nil_iff] at hm ⊢
      exact fun q hq => hm q (List.mem_filter.1 hq).1
    · rfl
  · have hu : u.lane m = s.lane m := (congrArg (Two.get · m) hl).trans (Two.get_set_ne _ _ e)
    rw [ho, hu]
    exact hm

/-- What a merge completion leaves of its lane at the end of its event. -/
theorem merged_lane {u t : State} {c : LaneCtl} {l : Lane} {g : Tag} (ev : EventEnd u t)
    (hl : u.lane l = c.merged g) :
    (t.lane l).launch = none ∧ ∀ q ∈ (t.lane l).parcels, q.tag ≠ g := by
  refine ⟨(ev.lanes l).launch.trans (by rw [hl]; rfl), fun q hq => ?_⟩
  have hm := List.mem_map_of_mem (f := Parcel.tag) hq
  rw [(ev.lanes l).map_eq Parcel.tag fun _ => rfl, hl] at hm
  obtain ⟨p, hp, e⟩ := List.mem_map.1 hm
  have := (List.mem_filter.1 hp).2
  rw [← e]
  simpa using this

/-- A launch without a plan: INDUCTED alone. -/
theorem State.mergeComplete_unplanned {s : State} {l : Lane} {e : Launch} {r : Parcel} (hp : r.planSlot = none) :
    s.mergeComplete l e r = { s with
      rep := (s.queueReport (.inducted l r.tag r.reportId e.tray r.chute e.span e.double)).rep
      lanes := s.lanes.set l ((s.lane l).merged r.tag) } := by
  simp only [State.mergeComplete, hp]
  rfl

/-- A launch with its plan: LOADED placed, INDUCTED queued, the plan ended in success. -/
theorem State.mergeComplete_planned {s : State} {l : Lane} {e : Launch} {r : Parcel} {sl : Slot} {p : Plan}
    (hs : r.planSlot = some sl) (hp : s.plan l sl = some p) (he : s.line.enabled = true)
    (ht : s.hasTwin (plainEntry (.loaded r.chute e.double) e.tray e.span) = false) (hq : s.txq.length < 8) :
    ∃ (c : LineIf) (v : State), v.trays = s.trays ∧ s.mergeComplete l e r = { s with
      txq := s.txq ++ [plainEntry (.loaded r.chute e.double) e.tray e.span]
      line := c
      rep := (s.queueReport (.inducted l r.tag r.reportId e.tray r.chute e.span e.double)).rep
      plans := s.plans.set l sl none, trig := s.trig.set l sl none, aims := s.aims.set l sl none
      trays := (v.giveBackAll { lane := l, tag := p.tag } .passed (s.namedTrays p.target p.span)).trays
      lanes := s.lanes.set l ((s.lane l).merged r.tag) } := by
  have ha := s.appendEntry_eq (plainEntry (.loaded r.chute e.double) e.tray e.span)
  have hw := State.placeFrame_of_room he ht hq
  simp only [State.mergeComplete, hs, hw]
  generalize s.appendEntry (plainEntry (.loaded r.chute e.double) e.tray e.span) = a at ha
  have hpa : (a.queueReport (.inducted l r.tag r.reportId e.tray r.chute e.span e.double)).plan l sl = some p := by
    rw [ha]; exact hp
  refine ⟨a.line, (a.queueReport (.inducted l r.tag r.reportId e.tray r.chute e.span e.double)).clearSlot l sl,
    by rw [ha]; rfl, ?_⟩
  simp only [State.succeed, hpa]
  rw [State.giveBackAll_eq]
  have hn : (a.queueReport (.inducted l r.tag r.reportId e.tray r.chute e.span e.double)).namedTrays p.target p.span =
      s.namedTrays p.target p.span := by rw [ha]; rfl
  rw [hn]
  generalize (State.giveBackAll _ _ _ _).trays = v
  rw [ha]
  rfl

/-- The LOADED of a launch with its plan (R94, R136): its event's end. -/
theorem merge_planned {s : State} {l : Lane} {e : Launch} {r : Parcel} {sl : Slot} {p : Plan}
    (hs : r.planSlot = some sl) (hp : s.plan l sl = some p) (he : s.line.enabled = true)
    (ht : s.hasTwin (plainEntry (.loaded r.chute e.double) e.tray e.span) = false) (hq : s.txq.length < 8)
    (ho : ∀ m, s.offered m = []) :
    let t := (s.mergeComplete l e r).settle s true true
    (t.rep = (s.queueReport (.inducted l r.tag r.reportId e.tray r.chute e.span e.double)).rep ∧
      (t.lane l).launch = none ∧ (∀ q ∈ (t.lane l).parcels, q.tag ≠ r.tag) ∧ t.pins = s.pins ∧ t.loop = s.loop ∧
      t.doubt = s.doubt ∧ t.table = s.table) ∧
    t.txq = s.txq ++ [plainEntry (.loaded r.chute e.double) e.tray e.span] ∧ t.plan l sl = none ∧
    ∀ k ∈ s.namedTrays p.target p.span, ∀ q, s.tray? k = some q → q.cond = .own →
      q.plan = some { lane := l, tag := p.tag } → ∃ q', t.tray? k = some q' ∧ q'.cond = .passed ∧ q'.plan = none := by
  obtain ⟨c, v, hv, hu⟩ := State.mergeComplete_planned (e := e) hs hp he ht hq
  generalize s.mergeComplete l e r = u at hu
  have ev : EventEnd u (u.settle s true true) :=
    State.settle_end (.inr (.inr (merged_offered ho (by rw [hu]) (by rw [hu]))))
      (State.leavesNothing_of_txq_ne (by rw [hu]; simp) _ _)
  obtain ⟨h1, h2⟩ := merged_lane (c := s.lane l) (g := r.tag) ev (by rw [hu]; exact Two.get_set_self _ _ _)
  refine ⟨⟨ev.rep.trans (by rw [hu]), h1, h2, ev.pins.trans (by rw [hu]), ev.loop.trans (by rw [hu]),
    ev.doubt.trans (by rw [hu]), ev.table.trans (by rw [hu])⟩, ev.txq.trans (by rw [hu]),
    (ev.plan l sl).trans ?_, fun k hk q h3 h4 h5 =>
    ⟨{ cond := .passed, seen := q.seen, holder := none, partner := none, plan := none },
      (ev.tray k).trans ?_, rfl, rfl⟩⟩
  · rw [hu]; exact s.plans.get_set_self l sl none
  · rw [hu]
    exact State.giveBackAll_own (s := v) (c := .passed) (by decide) hk (by rw [State.tray?, hv]; exact h3) h4 h5

/-- The launch of an abandoned plan: INDUCTED alone, and the station as it is or, in LEAVING with nothing left, its
return. -/
theorem merge_unplanned {s : State} {l : Lane} {e : Launch} {r : Parcel} (hs : r.planSlot = none)
    (ho : ∀ m, s.offered m = []) :
    let inducted := (s.queueReport (.inducted l r.tag r.reportId e.tray r.chute e.span e.double)).rep
    let t := (s.mergeComplete l e r).settle s true true
    ((s.table.station = .online ∨ s.txq ≠ [] ∨ (s.lane (otherLane l)).launchRuns = true) →
      (t.rep = inducted ∧ (t.lane l).launch = none ∧ (∀ q ∈ (t.lane l).parcels, q.tag ≠ r.tag) ∧
        t.pins = s.pins ∧ t.loop = s.loop ∧ t.doubt = s.doubt ∧ t.table = s.table) ∧
      t.txq = s.txq ∧ t.trays = s.trays ∧ t.plans = s.plans) ∧
    (s.table.station = .leaving → s.txq = [] → (s.lane (otherLane l)).launchRuns = false →
      t.table = { s.table with station := .configured } ∧ t.txq = [] ∧ t.line.enabled = false ∧
        inducted.fifo <+: t.rep.fifo) := by
  have hu := State.mergeComplete_unplanned (s := s) (l := l) (e := e) hs
  generalize s.mergeComplete l e r = u at hu
  have hpn : u.PlansNothing s true := .inr (.inr (merged_offered ho (by rw [hu]) (by rw [hu])))
  have hself : u.lane l = (s.lane l).merged r.tag := by rw [hu]; exact Two.get_set_self _ _ _
  have hother : u.lane (otherLane l) = s.lane (otherLane l) := by
    rw [hu]; exact Two.get_set_ne _ _ (by cases l <;> decide)
  have hdone : u.leavingDone = (s.table.station == .leaving && !(s.lane (otherLane l)).launchRuns &&
      s.txq.isEmpty) := by
    have h1 : (u.lane l).launchRuns = false := by rw [hself]; rfl
    have h2 : (u.lane (otherLane l)).launchRuns = (s.lane (otherLane l)).launchRuns := by rw [hother]
    have h3 : u.table = s.table ∧ u.txq = s.txq := by rw [hu]; exact ⟨rfl, rfl⟩
    unfold State.leavingDone
    rw [h3.1, h3.2]
    cases l
    · rw [show u.lanes.l0.launchRuns = false from h1,
        show u.lanes.l1.launchRuns = (s.lane (otherLane .l0)).launchRuns from h2]
      simp
    · rw [show u.lanes.l1.launchRuns = false from h1,
        show u.lanes.l0.launchRuns = (s.lane (otherLane .l1)).launchRuns from h2]
      simp
  refine ⟨fun h => ?_, fun h1 h2 h3 => ?_⟩
  · have ev : EventEnd u (u.settle s true true) := by
      refine State.settle_end hpn (.inr ?_)
      rw [hdone]
      rcases h with h | h | h
      · simp [h]
      · simp [h]
      · simp [h]
    obtain ⟨k1, k2⟩ := merged_lane ev hself
    exact ⟨⟨ev.rep.trans (by rw [hu]), k1, k2, ev.pins.trans (by rw [hu]), ev.loop.trans (by rw [hu]),
      ev.doubt.trans (by rw [hu]), ev.table.trans (by rw [hu])⟩, ev.txq.trans (by rw [hu]),
      ev.trays.trans (by rw [hu]), ev.plans.trans (by rw [hu])⟩
  · obtain ⟨k1, k2, k3, k4, -⟩ := State.settle_leaving_kept (before := s) (test := true) hpn rfl
      (by rw [hdone, h1, h2, h3]; rfl)
    obtain ⟨bytes, hb⟩ := k4.fifo
    exact ⟨k1.trans (by rw [hu]), k2.trans (by rw [hu]; exact h2), by rw [k3]; rfl, bytes, by rw [hb, hu]⟩

/-- Settles O46: by whether the record still has its plan. -/
theorem mergeCompletionInductsParcel : Obligations.MergeCompletionInductsParcel := by
  unfold Obligations.MergeCompletionInductsParcel
  intro s l e r hr _ hl hsm ha hp ho inducted freed
  have hexec := exec_mergeEyeClear hr hl hsm ha hp
  refine ⟨fun sl p hs hpl he ht hq => ?_, fun hs => ⟨fun h => ?_, fun h1 h2 h3 => ?_⟩⟩
  · exact ⟨_, hexec, merge_planned (s := s.setMergeEye l false) hs hpl he ht hq ho⟩
  · exact ⟨_, hexec, (merge_unplanned (s := s.setMergeEye l false) hs ho).1 h⟩
  · exact ⟨_, hexec, (merge_unplanned (s := s.setMergeEye l false) hs ho).2 h1 h2 h3⟩

end Sys2Proof.Machine
end

section
/-! PROOF. LEAVE (R89, R106, R137, R164, R165). -/

open Sys2Proof Sys2Proof.Machine

namespace Sys2Proof.Machine

/-- A lane at the end of an event that ends LEAVING, where no transfer begins. -/
theorem State.settle_leaving_lane {s before : State} {planning test : Bool} (hp : s.PlansNothing before planning)
    (ht : (test || queueEmptied before s) = true) (hd : s.leavingDone = true) {l : Lane} (hn : s.NoTransfer l) :
    (s.settle before planning test).lane l = { s.lane l with feed := s.feedRuns l }.left := by
  rw [State.settle_leaving hp ht hd]
  have hl : s.startTransfers.updateFeeds.lane l = { s.lane l with feed := s.feedRuns l } := by
    have h1 := State.startTransfers_lane hn
    rw [State.updateFeeds_lane, h1, State.feedRuns_congr (s.startTransfers_keep State.online fun _ _ => rfl) h1]
  have he : s.startTransfers.updateFeeds.endLeaving.lane l = (s.startTransfers.updateFeeds.lane l).left := by
    have e := s.startTransfers.updateFeeds.endLeaving_eq
    generalize s.startTransfers.updateFeeds = v at e
    rw [e]
    cases l <;> rfl
  rw [← hl, ← he]
  generalize s.startTransfers.updateFeeds.endLeaving = w
  exact congrArg (Two.get · l) (State.retakeAspects_lanes _)

theorem LaneUnplanned.measuring? {c d : LaneCtl} (h : LaneUnplanned c d) {r : Parcel}
    (hr : c.measuring? = some r) : ∃ r', d.measuring? = some r' ∧ r'.tag = r.tag := by
  obtain ⟨f, rfl, hf⟩ := h
  have keep : ∀ p : Parcel, (f p).place = p.place ∧ (f p).named = p.named ∧ (f p).tag = p.tag := fun p => by
    rcases hf p with e | e <;> rw [e] <;> exact ⟨rfl, rfl, rfl⟩
  refine ⟨f r, ?_, (keep r).2.2⟩
  have : (c.parcels.map f).find? (fun r => r.place == .measuring && r.named.isNone) =
      (c.parcels.find? fun r => r.place == .measuring && r.named.isNone).map f := by
    rw [List.find?_map]
    simp only [Function.comp_def, (keep _).1, (keep _).2.1]
  exact this.trans (congrArg (Option.map f) hr)

theorem LaneCtl.discardMeasure_some {c : LaneCtl} {r : Parcel} (h : c.measuring? = some r) :
    c.discardMeasure = { c.dropParcel r.tag with measure := 0, gapTest := none } := by
  simp only [LaneCtl.discardMeasure, h]

theorem LaneCtl.discardMeasure_none {c : LaneCtl} (h : c.measuring? = none) :
    c.discardMeasure = { c with gapTest := none } := by
  simp only [LaneCtl.discardMeasure, h]

/-- What LEAVE leaves of a lane (R89, R106). -/
theorem LaneCtl.leave_fields (c : LaneCtl) :
    c.leave.feed = false ∧ c.leave.transfer = none ∧ c.leave.gapTest = none ∧ c.leave.launch = c.launch ∧
      ∀ r, c.measuring? = some r → c.leave.measure = 0 ∧ ∀ q ∈ c.leave.parcels, q.tag ≠ r.tag := by
  cases h : c.measuring? with
  | none =>
    rw [LaneCtl.leave, LaneCtl.discardMeasure_none h]
    exact ⟨rfl, rfl, rfl, rfl, fun r hr => nomatch hr⟩
  | some r =>
    rw [LaneCtl.leave, LaneCtl.discardMeasure_some h]
    refine ⟨rfl, rfl, rfl, rfl, fun r' e => ⟨rfl, fun q hq => ?_⟩⟩
    rw [← Option.some.inj e]
    simpa using (List.mem_filter.1 hq).2

theorem State.leaveLine_lane (s : State) (l : Lane) : s.leaveLine.lane l = (s.withdrawAll.lane l).leave := by
  change ((s.withdrawAll.modLane .l0 LaneCtl.leave).modLane .l1 LaneCtl.leave).lane l = _
  cases l with
  | l0 => rw [State.modLane_lane_ne _ _ (by decide), State.modLane_lane_self]
  | l1 => rw [State.modLane_lane_self, State.modLane_lane_ne _ _ (by decide)]

theorem State.withdrawAll_lane (s : State) (l : Lane) : LaneUnplanned (s.lane l) (s.withdrawAll.lane l) :=
  laneUnplanned_workRel.withdrawAll s l

/-- The fields of a lane after LEAVE that its end of the event leaves. -/
theorem State.leaveLine_lane_fields (s : State) (l : Lane) :
    (s.leaveLine.lane l).transfer = none ∧ (s.leaveLine.lane l).gapTest = none ∧
      (s.leaveLine.lane l).launchRuns = (s.lane l).launchRuns ∧
      ∀ r, (s.lane l).measuring? = some r → (s.leaveLine.lane l).measure = 0 ∧
        ∀ q ∈ (s.leaveLine.lane l).parcels, q.tag ≠ r.tag := by
  rw [State.leaveLine_lane]
  have hu := s.withdrawAll_lane l
  obtain ⟨-, h2, h3, h4, h5⟩ := (s.withdrawAll.lane l).leave_fields
  refine ⟨h2, h3, LaneCtl.launchRuns_congr ?_, fun r hr => ?_⟩
  · rw [h4]
    obtain ⟨f, e, -⟩ := hu
    rw [e]
  · obtain ⟨r', hr', ht⟩ := hu.measuring? hr
    rw [← ht]
    exact h5 r' hr'

theorem State.leaveLine_kept (s : State) :
    s.leaveLine.table = { s.table with station := .leaving } ∧ s.leaveLine.loop = s.loop ∧
      s.leaveLine.port = s.port ∧ ∀ l sl, s.leaveLine.plan l sl = s.withdrawAll.plan l sl := by
  have w := s.withdrawAll_planWork
  refine ⟨?_, w.loop, w.port, fun _ _ => rfl⟩
  change { s.withdrawAll.table with station := Station.leaving } = _
  rw [w.table]

/-- The event of a LEAVE taken in ONLINE. -/
theorem leave_end (s : State) :
    let t := s.leaveLine.settle s false true
    (t.table.station = .leaving ∨ t.table.station = .configured) ∧
    ((s.lanes.l0.launchRuns = true ∨ s.lanes.l1.launchRuns = true) →
      t.table = { s.table with station := .leaving }) ∧
    (∀ l sl p, t.plan l sl = some p → p.state = .launched) ∧
    (∀ l, (t.lane l).feed = false ∧ (t.lane l).transfer = none ∧ (t.lane l).gapTest = none ∧
      ∀ r, (s.lane l).measuring? = some r → (t.lane l).measure = 0 ∧ ∀ q ∈ (t.lane l).parcels, q.tag ≠ r.tag) ∧
    t.table.committed = s.table.committed ∧ t.table.working = s.table.working ∧ t.loop = s.loop ∧
    t.port = s.port := by
  obtain ⟨htab, hloop, hport, hplans⟩ := s.leaveLine_kept
  have hfields := s.leaveLine_lane_fields
  have hlaunched : ∀ l sl p, s.leaveLine.plan l sl = some p → p.state = .launched := fun l sl p h =>
    s.withdrawAll_onlyLaunched l sl p ((hplans l sl).symm.trans h)
  generalize s.leaveLine = u at htab hloop hport hfields hlaunched
  have hst : u.table.station = .leaving := by rw [htab]
  have hoff : u.online = false := by simp [State.online, hst]
  have hpn : u.PlansNothing s false := .inr (.inl (State.mayPlan_of_not_online (by rw [hst]; decide)))
  have hfeed : ∀ l, u.feedRuns l = false := fun l => by simp [State.feedRuns, hoff]
  by_cases hd : u.leavingDone = true
  · obtain ⟨k1, -, -, -, k5, k6, k7⟩ := State.settle_leaving_kept (before := s) (test := true) hpn rfl hd
    have hl := fun l => State.settle_leaving_lane (before := s) (test := true) hpn rfl hd
      (State.noTransfer_of_offline hoff l)
    generalize u.settle s false true = t at k1 k5 k6 k7 hl
    refine ⟨.inr (by rw [k1]), fun h => ?_, fun l sl p h => ?_, fun l => ?_, by rw [k1, htab], by rw [k1, htab],
      k6.trans hloop, k7.trans hport⟩
    · have h0 := (hfields .l0).2.2.1
      have h1 := (hfields .l1).2.2.1
      simp only [State.leavingDone, Bool.and_eq_true, Bool.not_eq_true'] at hd
      rcases h with h | h
      · exact absurd ((h0.trans h).symm.trans hd.1.1.2) Bool.false_ne_true.symm
      · exact absurd ((h1.trans h).symm.trans hd.1.2) Bool.false_ne_true.symm
    · rw [State.plan, k5] at h
      cases l <;> cases sl <;> cases h
    · rw [hl l]
      exact ⟨rfl, rfl, rfl, fun r hr => ⟨((hfields l).2.2.2 r hr).1, fun q hq => absurd hq List.not_mem_nil⟩⟩
  · have hln : u.LeavesNothing s true := .inr (by simpa using hd)
    have ev := State.settle_end hpn hln
    have hl := fun l => State.settle_lane hpn hln (State.noTransfer_of_offline hoff l)
    generalize u.settle s false true = t at ev hl
    have ht := ev.table.trans htab
    refine ⟨.inl (by rw [ht]), fun _ => ht, fun l sl p h => hlaunched l sl p ((ev.plan l sl).symm.trans h),
      fun l => ?_, by rw [ht], by rw [ht], ev.loop.trans hloop, ev.port.trans hport⟩
    obtain ⟨f2, f3, -, f5⟩ := hfields l
    rw [hl l]
    exact ⟨hfeed l, f2, f3, f5⟩

/-- Settles O56: refused off ONLINE; its event's end otherwise. -/
theorem leaveStopsIntakeAndPlanning : Obligations.LeaveStopsIntakeAndPlanning := by
  unfold Obligations.LeaveStopsIntakeAndPlanning
  intro s hr hst
  refine ⟨fun hon => ?_, fun hoff => ?_⟩
  · have hexec : exec .leave s = .next (s.leaveLine.settle s false true) := by
      rw [exec_messageOf_act (m := .leave) rfl hr hst]
      exact congrArg Host.Outcome.next (if_pos hon)
    obtain ⟨h1, h2, h3, h4, h5, h6, h7, h8⟩ := leave_end s
    refine ⟨_, hexec, h1, h2, h3, fun l => ?_, h5, h6, h7, h8⟩
    obtain ⟨k1, k2, k3, k4⟩ := h4 l
    refine ⟨k1, k2, k3, ?_, k4⟩
    rw [State.settle_drvEn, State.entryBeltRuns]
    have : (s.leaveLine.settle s false true).online = false := by
      unfold State.online
      rcases h1 with h | h <;> rw [h] <;> rfl
    rw [this, Bool.and_false]
  · obtain ⟨o, ho, -⟩ := exec_of_refused (c := .leave) (m := .leave) rfl hr hst (if_neg hoff)
    exact ⟨o, ho⟩

end Sys2Proof.Machine
end

section
/-! PROOF. STOP (R105, R134, R137). -/

open Sys2Proof Sys2Proof.Machine

namespace Sys2Proof.Machine

/-! ### The withdrawals of a STOP -/

theorem State.stopPlans_eq (s : State) (l : Lane) : ∃ n, s.stopPlans l =
    (s.setFreeCount n).withdrawSlots l (s.freeOrder (s.slotsByAge l)) :=
  ⟨_, congrArg (fun u : State => u.withdrawSlots l (s.freeOrder (s.slotsByAge l))) (State.afterOrder_eq _ _)⟩

theorem State.stopPlans_lane (s : State) (l m : Lane) : LaneUnplanned (s.lane m) ((s.stopPlans l).lane m) := by
  obtain ⟨n, e⟩ := s.stopPlans_eq l
  rw [e]
  exact laneUnplanned_workRel.withdrawSlots l _ (s.setFreeCount n) m

theorem State.stopPlans_onlyLaunched (s : State) (l : Lane) (sl : Slot) : (s.stopPlans l).OnlyLaunched l sl := by
  obtain ⟨n, e⟩ := s.stopPlans_eq l
  rw [e]
  exact State.withdrawSlots_all (s := s.setFreeCount n) (fun sl h => (s.freeOrder_perm _).mem_iff.2 h) sl

theorem State.stopPlans_planEnds (s : State) (l : Lane) : ∃ n, PlanEnds (s.setFreeCount n) (s.stopPlans l) := by
  obtain ⟨n, e⟩ := s.stopPlans_eq l
  exact ⟨n, e ▸ planEnds_workRel.withdrawSlots l _ (s.setFreeCount n)⟩

/-- Where every plan of the lane is LAUNCHED a STOP withdraws nothing. -/
theorem State.withdrawSlots_launched {s : State} {l : Lane} (h : ∀ sl, s.OnlyLaunched l sl) (slots : List Slot) :
    s.withdrawSlots l slots = s := by
  have one : ∀ sl, s.withdrawSlot l sl = s := fun sl => by
    unfold State.withdrawSlot
    split
    · rename_i p hp
      exact if_pos (h sl p hp)
    · rfl
  unfold State.withdrawSlots
  induction slots with
  | nil => rfl
  | cons sl sls ih => rw [List.foldl_cons, one]; exact ih

/-- What a STOP with room does, by a relation its withdrawals respect. -/
theorem RoomRel.stopPlans {l : Lane} {A : PlanEnding → Prop} {G : State → Plan → Prop} {R : State → State → Prop}
    (h : RoomRel l A G R) (hn : ∀ s n, R s (s.setFreeCount n)) {s : State} (hq : s.txq.length + 2 ≤ 8)
    (hg : ∀ sl p, s.plan l sl = some p → p.state ≠ .launched → G s p) : R s (s.stopPlans l) := by
  obtain ⟨n, e⟩ := s.stopPlans_eq l
  have := (s.setFreeCount n).live_le l
  have hs : (s.setFreeCount n).Roomy l := by
    unfold State.Roomy
    exact (Nat.add_le_add_left this _).trans hq
  rw [e]
  exact h.trans (hn s n) (h.withdrawSlots _ hs fun sl p h1 h2 => h.keep (hn s n) (hg sl p h1 h2)).1

theorem sameRep_roomRel (l : Lane) : RoomRel l (· ≠ .miss) (fun _ _ => True) (fun s t => t.rep = s.rep) where
  refl := fun _ => rfl
  trans := fun h k => k.trans h
  append := fun s k sp => by rw [State.appendEntry_eq]
  unplan := fun s sl p _ _ => (s.unplan_txq l sl p).2.2
  claim := fun s ref => by rw [State.withdrawClaim_eq]
  miss := fun s e t h => by rw [State.countMiss_of_ne h]
  withdraw := by decide
  keep := fun _ _ => trivial
  later := fun _ _ => trivial

/-- The records with tag `g` and their plans stay whole. -/
structure TagKept (l : Lane) (g : Tag) (s t : State) : Prop where
  tags : (t.lane l).parcels.map Parcel.tag = (s.lane l).parcels.map Parcel.tag
  records : ∀ q ∈ (s.lane l).parcels, q.tag = g → q ∈ (t.lane l).parcels
  plans : ∀ sl p, s.plan l sl = some p → p.tag = g → t.plan l sl = some p

theorem TagKept.of_same {l : Lane} {g : Tag} {s t : State} (hl : t.lanes = s.lanes) (hp : t.plans = s.plans) :
    TagKept l g s t := by
  have h : t.lane l = s.lane l := congrArg (Two.get · l) hl
  refine ⟨by rw [h], fun q hq _ => by rw [h]; exact hq, fun sl p h1 _ => ?_⟩
  exact (congrArg (fun f => f.get l sl) hp).trans h1

theorem TagKept.trans {l : Lane} {g : Tag} {s t u : State} (h : TagKept l g s t) (k : TagKept l g t u) :
    TagKept l g s u :=
  ⟨k.tags.trans h.tags, fun q hq e => k.records q (h.records q hq e) e,
    fun sl p hp e => k.plans sl p (h.plans sl p hp e) e⟩

theorem LaneCtl.rank_of_tags {c d : LaneCtl} (h : d.parcels.map Parcel.tag = c.parcels.map Parcel.tag) (g : Tag) :
    d.rank g = c.rank g := by
  have e : ∀ c : LaneCtl, c.rank g = (c.parcels.map Parcel.tag).findIdx (· == g) := fun c => by
    rw [List.findIdx_map]
    rfl
  rw [e, e, h]

/-- Ending plans of parcels behind tag `g` leaves the records with that tag and their plans. -/
theorem tagKept_roomRel (l : Lane) (g : Tag) :
    RoomRel l (· ≠ .miss) (fun s p => (s.lane l).rank g < (s.lane l).rank p.tag) (TagKept l g) where
  refl := fun _ => .of_same rfl rfl
  trans := .trans
  append := fun s k sp => .of_same (by rw [State.appendEntry_eq]) (by rw [State.appendEntry_eq])
  claim := fun s ref => .of_same (by rw [State.withdrawClaim_eq]) (by rw [State.withdrawClaim_eq])
  miss := fun s e t h => by rw [State.countMiss_of_ne h]; exact .of_same rfl rfl
  withdraw := by decide
  keep := fun h k => by rwa [LaneCtl.rank_of_tags h.tags, LaneCtl.rank_of_tags h.tags]
  later := fun h k => lt_trans h k
  unplan := fun s sl p hp hlt => by
    have hne : g ≠ p.tag := fun e => by rw [e] at hlt; exact lt_irrefl _ hlt
    have hl : (s.unplan l sl p).lane l = (s.lane l).modParcel p.tag fun r => { r with planSlot := none } := by
      rw [State.unplan_eq]; exact Two.get_set_self _ _ _
    refine ⟨?_, fun q hq e => ?_, fun sl' p' hp' e => ?_⟩
    · rw [hl]
      exact (LaneUnplanned.unplan (s.lane l) p.tag).map_eq Parcel.tag fun _ => rfl
    · rw [hl]
      exact List.mem_map.2 ⟨q, hq, if_neg fun x => hne (e ▸ x)⟩
    · have hsl : (l, sl') ≠ (l, sl) := fun x => by
        cases x
        rw [hp] at hp'
        cases hp'
        exact hne e.symm
      rw [State.unplan_eq]
      exact (Four.get_set_ne _ _ hsl).trans hp'

/-! ### What a STOP leaves of its lane -/

theorem State.stopLane_eq (s : State) (l : Lane) : ∃ r, s.stopLane l = { s.stopPlans l with
      lanes := (s.stopPlans l).lanes.set l { ((s.stopPlans l).lane l).stopList with
        state := .stopped, reason := if (s.lane l).state = .stopped then (s.lane l).reason else .command }
      rep := r } ∧ r = if (s.lane l).state = .stopped then (s.stopPlans l).rep
        else ((s.stopPlans l).queueReport (.lane l .stopped .command)).rep := by
  obtain ⟨f, e, -⟩ := s.stopPlans_lane l l
  refine ⟨_, ?_, rfl⟩
  unfold State.stopLane
  dsimp only
  by_cases h : (s.lane l).state = .stopped
  · rw [if_pos h, if_pos h, if_pos h]
    refine (State.modLane_eq (d := { ((s.stopPlans l).lane l).stopList with
      state := .stopped, reason := (s.lane l).reason }) ?_).trans rfl
    have h1 : ((s.stopPlans l).lane l).stopList.state = .stopped := by rw [e]; exact h
    have h2 : ((s.stopPlans l).lane l).stopList.reason = (s.lane l).reason := by rw [e]; rfl
    rw [← h1, ← h2]
  · rw [if_neg h, if_neg h, if_neg h]
    have hc := ((s.stopPlans l).modLane_laneChange l LaneCtl.stopList).trans
      (State.enterLane_laneChange _ l (st := .stopped) (by decide) .command)
    have hl := State.enterLane_lane_self ((s.stopPlans l).modLane l LaneCtl.stopList) l .stopped .command
    rw [State.modLane_lane_self] at hl
    have hr := State.enterLane_rep ((s.stopPlans l).modLane l LaneCtl.stopList) l .stopped .command
    have e := hc.eq
    rw [hl, hr] at e
    exact e

/-- What a STOP leaves of a lane's control block. -/
def LaneCtl.Stopped (c d : LaneCtl) : Prop :=
  d.state = .stopped ∧ d.transfer = none ∧ d.gapTest = none ∧ d.early = none ∧
    (∀ q ∈ d.parcels, q.place = .launching ∧ c.launchRuns = true) ∧ (c.launchRuns = false → d.launch = none) ∧
    (c.launchRuns = true → d.launch = c.launch ∧
      d.parcels.map Parcel.tag = (c.parcels.filter fun q => q.place == .launching).map Parcel.tag ∧
      ∀ q ∈ c.parcels, q.place = .launching → ∃ q' ∈ d.parcels, q' = { q with planSlot := q'.planSlot }) ∧
    d.removal = (c.removal || decide (d.parcels.length < c.parcels.length)) ∧
    d.reason = if c.state = .stopped then c.reason else .command

theorem LaneUnplanned.stopped {c c' : LaneCtl} (h : LaneUnplanned c c') :
    c.Stopped { c'.stopList with
      state := .stopped, reason := if c.state = .stopped then c.reason else .command } := by
  obtain ⟨f, rfl, hf⟩ := h
  have keep : ∀ p : Parcel, (f p).place = p.place ∧ (f p).tag = p.tag ∧ f p = { p with planSlot := (f p).planSlot } :=
    fun p => by rcases hf p with e | e <;> rw [e] <;> exact ⟨rfl, rfl, rfl⟩
  have hfil : (c.parcels.map f).filter (fun r => r.place == .launching) =
      (c.parcels.filter fun r => r.place == .launching).map f := by
    rw [List.filter_map]
    simp only [Function.comp_def, (keep _).1]
  have hrun : ({ c with parcels := c.parcels.map f } : LaneCtl).launchRuns = c.launchRuns := rfl
  unfold LaneCtl.Stopped LaneCtl.stopList
  dsimp only
  rw [hrun, hfil, List.length_map]
  refine ⟨rfl, rfl, rfl, rfl, fun q hq => ?_, fun h => if_neg (by rw [h]; exact Bool.false_ne_true), fun h =>
    ⟨if_pos h, ?_, fun q hq hp => ⟨f q, ?_, (keep q).2.2⟩⟩, rfl, rfl⟩
  · cases h : c.launchRuns with
    | false => rw [h] at hq; exact absurd hq List.not_mem_nil
    | true =>
      rw [h] at hq
      obtain ⟨p, hp, rfl⟩ := List.mem_map.1 hq
      refine ⟨?_, rfl⟩
      rw [(keep p).1]
      simpa using (List.mem_filter.1 hp).2
  · rw [if_pos h, List.map_map]
    exact List.map_congr_left fun p _ => (keep p).2.1
  · rw [if_pos h]
    exact List.mem_map_of_mem (List.mem_filter.2 ⟨hq, by simpa using hp⟩)

/-! ### The event of a STOP -/

/-- The end of a STOP's event leaves its lane and its plans, but for the feed. -/
theorem stop_settle {s : State} {l : Lane}
    (hlv : s.table.station = .leaving → ∀ m sl p, s.plan m sl = some p → p.state = .launched) :
    let u := s.stopLane l
    let t := u.settle s false false
    t.lane l = { u.lane l with feed := false } ∧ (∀ sl, t.plan l sl = u.plan l sl) ∧
      (s.mayPlan = false → EventEnd u t) ∧ t.loop = s.loop ∧ t.doubt = s.doubt ∧ t.table = s.table := by
  obtain ⟨r, hu, -⟩ := s.stopLane_eq l
  have w := s.stopPlans_planWork l
  have hsame : s.table.station = .leaving → (s.stopPlans l).txq = s.txq := fun h => by
    obtain ⟨n, e⟩ := s.stopPlans_eq l
    rw [e, State.withdrawSlots_launched (s := s.setFreeCount n) fun sl p hp => hlv h l sl p hp]
    rfl
  have hl : (s.stopLane l).lane l = _ := (congrArg (Two.get · l) (congrArg State.lanes hu)).trans
    (Two.get_set_self _ _ _)
  have hst : ((s.stopLane l).lane l).state = .stopped := by rw [hl]
  have htab : (s.stopLane l).table = s.table := by rw [hu]; exact w.table
  have hloop : (s.stopLane l).loop = s.loop := by rw [hu]; exact w.loop
  have hdoubt : (s.stopLane l).doubt = s.doubt := by rw [hu]; exact w.doubt
  have htxq : s.table.station = .leaving → (s.stopLane l).txq = s.txq := fun h => by rw [hu]; exact hsame h
  generalize s.stopLane l = u at hst htab hloop hdoubt htxq
  have hn : u.NoTransfer l := by rw [State.noTransfer_iff, State.transferReady?]; simp [hst]
  have hfeed : u.feedRuns l = false := by simp [State.feedRuns, hst]
  have hmay : u.mayPlan = s.mayPlan := State.mayPlan_congr hloop htab
  have hln : u.LeavesNothing s false := by
    by_cases h : s.table.station = .leaving
    · exact State.leavesNothing_of_txq (htxq h)
    · exact State.leavesNothing_of_not_leaving (by rw [htab]; exact h) _ _
  have hev : s.mayPlan = false → EventEnd u (u.settle s false false) := fun h =>
    State.settle_end (.inr (.inl (hmay.trans h))) hln
  by_cases h : s.table.station = .leaving
  · have hm : s.mayPlan = false := State.mayPlan_of_not_online (by rw [h]; decide)
    have ev := hev hm
    have hlane := State.settle_lane (.inr (.inl (hmay.trans hm))) hln hn (before := s) (planning := false)
    rw [hfeed] at hlane
    exact ⟨hlane, fun sl => ev.plan l sl, hev, ev.loop.trans hloop, ev.doubt.trans hdoubt, ev.table.trans htab⟩
  · have hst' : u.table.station ≠ .leaving := by rw [htab]; exact h
    obtain ⟨k1, k2⟩ := State.settle_untouched (before := s) (planning := false) (test := false) hst' hn
      (by rw [State.offered]; simp [hst])
    obtain ⟨k3, k4⟩ := State.settle_table_doubt u s false false hst'
    rw [hfeed] at k1
    exact ⟨k1, k2, hev, (u.settle_kept s false false).loop.trans hloop, k4.trans hdoubt, k3.trans htab⟩

/-- The report of a STOP stands first among its event's. -/
theorem stop_reports {s : State} {l : Lane} (hq : s.txq.length + 2 ≤ 8) :
    let t := (s.stopLane l).settle s false false
    (s.rep.fifo.length + 4 ≤ 128 → (s.lane l).state ≠ .stopped →
      s.rep.fifo ++ (Report.lane l .stopped .command).bytes <+: t.rep.fifo) ∧
    ((s.lane l).state = .stopped → (s.stopLane l).rep = s.rep) := by
  intro t
  have hrep : (s.stopPlans l).rep = s.rep :=
    (sameRep_roomRel l).stopPlans (fun _ _ => rfl) hq fun _ _ _ _ => trivial
  obtain ⟨r, hu, hr⟩ := s.stopLane_eq l
  refine ⟨fun hlen hst => ?_, fun hst => ?_⟩
  · rw [if_neg hst] at hr
    have hur : (s.stopLane l).rep = (s.queueReport (.lane l .stopped .command)).rep := by
      rw [hu, hr]
      exact State.queueReport_rep_congr hrep _
    obtain ⟨bytes, hb⟩ := ((s.stopLane l).settle_grows s false false).fifo
    refine ⟨bytes, ?_⟩
    rw [hb, hur]
    have hcap : s.rep.fifo.length + (Report.lane l .stopped .command).bytes.length ≤ Config.reportCapacity := hlen
    simp only [State.queueReport, State.modRep, hcap, if_true]
  · rw [if_pos hst] at hr
    rw [hu, hr, hrep]

/-- A LAUNCHING record in front of every plan withdrawn stays whole with its LAUNCHED plan. -/
theorem stop_record {s : State} {l : Lane} {q : Parcel} (hruns : (s.lane l).launchRuns = true)
    (hq : q ∈ (s.lane l).parcels) (hp : q.place = .launching) (hroom : s.txq.length + 2 ≤ 8)
    (hlt : ∀ sl p, s.plan l sl = some p → p.state ≠ .launched → (s.lane l).rank q.tag < (s.lane l).rank p.tag) :
    q ∈ ((s.stopLane l).lane l).parcels ∧
      ∀ sl p, s.plan l sl = some p → p.tag = q.tag → (s.stopLane l).plan l sl = some p := by
  have k := (tagKept_roomRel l q.tag).stopPlans (fun _ _ => .of_same rfl rfl) hroom hlt
  obtain ⟨r, hu, -⟩ := s.stopLane_eq l
  refine ⟨?_, fun sl p h1 h2 => ?_⟩
  · have hl : (s.stopLane l).lane l = _ := (congrArg (Two.get · l) (congrArg State.lanes hu)).trans
      (Two.get_set_self _ _ _)
    obtain ⟨f, e, -⟩ := s.stopPlans_lane l l
    have hrun : ((s.stopPlans l).lane l).launchRuns = true := by rw [e]; exact hruns
    rw [hl]
    unfold LaneCtl.stopList
    dsimp only
    rw [if_pos hrun]
    exact List.mem_filter.2 ⟨k.records q hq rfl, by simpa using hp⟩
  · rw [hu]
    exact k.plans sl p h1 h2

/-- Settles O51: the lane stopped and its event's end, the withdrawals with room beside it. -/
theorem stopEmptiesLaneButFinishingLaunch : Obligations.StopEmptiesLaneButFinishingLaunch := by
  unfold Obligations.StopEmptiesLaneButFinishingLaunch
  intro s b l hr hst hlv hb
  have hexec : exec (.stop b) s = .next ((s.stopLane l).settle s false false) := by
    rw [exec_messageOf_act (m := .stop b) rfl hr hst]
    exact congrArg Host.Outcome.next (State.onLane_of_some hb _)
  obtain ⟨hlane, hplan, hev, k1, k2, k3⟩ := stop_settle (l := l) hlv
  obtain ⟨r, hu, -⟩ := s.stopLane_eq l
  have hl : (s.stopLane l).lane l = _ := (congrArg (Two.get · l) (congrArg State.lanes hu)).trans
    (Two.get_set_self _ _ _)
  have hstop : (s.lane l).Stopped ((s.stopLane l).lane l) := by
    rw [hl]; exact (s.stopPlans_lane l l).stopped
  obtain ⟨c1, c2, c3, c4, c5, c6, c7, c8, c9⟩ := hstop
  have honly : ∀ sl, (s.stopLane l).OnlyLaunched l sl := fun sl p hp =>
    s.stopPlans_onlyLaunched l sl p (by rw [hu] at hp; exact hp)
  refine ⟨_, hexec, (congrArg LaneCtl.state hlane).trans c1, congrArg LaneCtl.feed hlane,
    (congrArg LaneCtl.transfer hlane).trans c2, (congrArg LaneCtl.gapTest hlane).trans c3,
    (congrArg LaneCtl.early hlane).trans c4, ?_, fun h => (congrArg LaneCtl.launch hlane).trans (c6 h),
    fun h => ?_, ?_, (congrArg LaneCtl.reason hlane).trans c9,
    fun hq hf hs => (stop_reports hq).1 hf hs, fun hm => ?_, k1, k2, k3⟩
  · rw [congrArg LaneCtl.parcels hlane]
    exact c5
  · obtain ⟨e1, e2, e3⟩ := c7 h
    refine ⟨(congrArg LaneCtl.launch hlane).trans e1, ?_, fun q hq hp => ⟨?_, fun hroom hlt => ?_⟩⟩
    · rw [congrArg LaneCtl.parcels hlane]; exact e2
    · rw [congrArg LaneCtl.parcels hlane]; exact e3 q hq hp
    · obtain ⟨m1, m2⟩ := stop_record h hq hp hroom hlt
      rw [congrArg LaneCtl.parcels hlane]
      exact ⟨m1, fun sl p h1 _ h3 => (hplan sl).trans (m2 sl p h1 h3)⟩
  · rw [congrArg LaneCtl.parcels hlane]
    exact (congrArg LaneCtl.removal hlane).trans c8
  · have ev := hev hm
    have hne : otherLane l ≠ l := by cases l <;> decide
    have ho : (s.stopLane l).lane (otherLane l) = (s.stopPlans l).lane (otherLane l) :=
      (congrArg (Two.get · (otherLane l)) (congrArg State.lanes hu)).trans (Two.get_set_ne _ _ hne)
    obtain ⟨f, e, -⟩ := s.stopPlans_lane l (otherLane l)
    rw [e] at ho
    have m := ev.lanes (otherLane l)
    exact ⟨fun sl p hp => honly sl p ((hplan sl).symm.trans hp), m.state.trans (by rw [ho]),
      m.reason.trans (by rw [ho]), m.removal.trans (by rw [ho]),
      fun hq hs => ev.rep.trans ((stop_reports hq).2 hs)⟩

end Sys2Proof.Machine
end

section
/-! PROOF. The 1 ms tick (00_scope.md, "Time base"). -/

open Sys2Proof Sys2Proof.Machine

namespace Sys2Proof.Machine

/-! ### What a tick changes -/

/-- One lane's timers after a tick. -/
def State.laneTicked (s : State) (l : Lane) : LaneCtl :=
  { s.lane l with
    transfer := if s.transferDue l then (s.lane l).transfer else (s.lane l).transfer.map (· + 1)
    launch := if s.mergeDue l then (s.lane l).launch
      else (s.lane l).launch.map fun e => if e.aborted then e else { e with timer := e.timer + 1 }
    buttonFilter := if s.filterRuns l && !s.filterDue l then (s.lane l).buttonFilter + 1
      else (s.lane l).buttonFilter }

/-- One lane's lamp timers after a tick. -/
def PaceLane.ticked (p : PaceLane) : PaceLane :=
  { p with
    pulse := p.pulseTick
    blink := if p.aspect = .wait && !p.blinkDue then p.blink + 1 else p.blink }

theorem State.tickMs_eq (s : State) : ∃ n, s.tickMs = { s with
    loop := { s.loop with
      windowTimer := if s.windowDue then s.loop.windowTimer else s.loop.windowTimer + 1 }
    table := { s.table with
      applying := if s.applyDue then s.table.applying
        else s.table.applying.map fun a => { a with timer := a.timer + 1 } }
    lanes := ⟨s.laneTicked .l0, s.laneTicked .l1⟩
    pace := { s.pace with lanes := ⟨s.pace.lanes.l0.ticked, s.pace.lanes.l1.ticked⟩ }
    tick := s.tick + 1, freeCount := n, pending := s.freeOrder s.due } := by
  refine ⟨(s.afterOrder s.due).freeCount, ?_⟩
  unfold State.tickMs
  rw [State.afterOrder_eq]
  rfl

/-! ### Which timers fall due -/

theorem State.windowDue_iff (s : State) : s.windowDue = true ↔ 100 ≤ s.loop.windowTimer + 1 :=
  decide_eq_true_iff

theorem State.applyDue_iff (s : State) : s.applyDue = true ↔
    s.table.station = .applying ∧ ∃ a, s.table.applying = some a ∧ 2 ≤ a.timer + 1 := by
  unfold State.applyDue State.busy
  cases s.table.applying with
  | none => simp
  | some a => simp [Config.applyMs]

theorem State.transferDue_iff (s : State) (l : Lane) : s.transferDue l = true ↔
    ∃ n, (s.lane l).transfer = some n ∧ s.cfgTransferMs l ≤ n + 1 := by
  unfold State.transferDue
  cases (s.lane l).transfer <;> simp

theorem State.mergeDue_iff (s : State) (l : Lane) : s.mergeDue l = true ↔
    ∃ e, (s.lane l).launch = some e ∧ e.aborted = false ∧ s.cfgMergeMs l ≤ e.timer + 1 := by
  unfold State.mergeDue
  cases (s.lane l).launch <;> simp

theorem State.filterRuns_iff (s : State) (l : Lane) : s.filterRuns l = true ↔
    s.pins.button.get l = false ∧ (s.lane l).buttonFilter < 20 := by
  rw [State.filterRuns, Bool.and_eq_true, Bool.not_eq_true', decide_eq_true_iff]
  exact Iff.rfl

theorem State.filterDue_iff (s : State) (l : Lane) : s.filterDue l = true ↔
    s.pins.button.get l = false ∧ (s.lane l).buttonFilter = 19 := by
  have h : Config.filterMs ≤ (s.lane l).buttonFilter + 1 ↔ 20 ≤ (s.lane l).buttonFilter + 1 := Iff.rfl
  rw [State.filterDue, Bool.and_eq_true, s.filterRuns_iff l, decide_eq_true_iff, h, and_assoc]
  refine and_congr_right fun _ => ?_
  omega

theorem PaceLane.goDue_iff (p : PaceLane) : p.goDue = true ↔ p.aspect = .go ∧ interval p.index ≤ p.pulse + 1 := by
  simp [PaceLane.goDue]

theorem PaceLane.goEndDue_iff (p : PaceLane) : p.goEndDue = true ↔
    p.aspect = .go ∧ p.pulse + 1 < interval p.index ∧ p.pulse + 1 = 250 := by
  have h := p.goDue_iff
  simp only [PaceLane.goEndDue, Config.pulseMs, Bool.and_eq_true, Bool.not_eq_true', beq_iff_eq, and_assoc]
  refine and_congr_right fun ha => and_congr_left fun _ => ?_
  rw [Bool.eq_false_iff, ne_eq, h]
  simp [ha]

theorem PaceLane.blinkDue_iff (p : PaceLane) : p.blinkDue = true ↔
    p.aspect = .wait ∧ (p.blink + 1 = 250 ∨ 1000 ≤ p.blink + 1) := by
  simp [PaceLane.blinkDue, Config.pulseMs, Config.blinkMs]

/-! ### The commands that join the queue -/

theorem mem_dueIf {b : Bool} {i c : Instr} : c ∈ dueIf b i ↔ c = i ∧ b = true := by
  cases b <;> simp [dueIf]

theorem dueIf_sublist (b : Bool) (i : Instr) : (dueIf b i).Sublist [i] := by
  cases b
  · exact List.nil_sublist _
  · exact List.Sublist.refl _

/-- Every command of a timer of one lane, once. -/
def laneExpiries (l : Lane) : List Instr :=
  [.transferTimeout l] ++ [.mergeTimeout l] ++ [.buttonFilterElapsed l] ++ [.goPulse l] ++ [.goPulseEnd l] ++
    [.waitBlink l]

theorem State.laneDue_sublist (s : State) (l : Lane) : (s.laneDue l).Sublist (laneExpiries l) :=
  ((((((dueIf_sublist _ _).append (dueIf_sublist _ _)).append (dueIf_sublist _ _)).append
    (dueIf_sublist _ _)).append (dueIf_sublist _ _)).append (dueIf_sublist _ _))

/-- A command falls due once. -/
theorem State.due_nodup (s : State) : s.due.Nodup := by
  have h : s.due.Sublist ([Instr.windowEnd] ++ [.applyComplete] ++ laneExpiries .l0 ++ laneExpiries .l1) :=
    (((dueIf_sublist _ _).append (dueIf_sublist _ _)).append (s.laneDue_sublist .l0)).append
      (s.laneDue_sublist .l1)
  exact h.nodup (by decide)

theorem State.mem_laneDue (s : State) (l : Lane) (c : Instr) : c ∈ s.laneDue l ↔
    (c = .transferTimeout l ∧ s.transferDue l = true) ∨ (c = .mergeTimeout l ∧ s.mergeDue l = true) ∨
      (c = .buttonFilterElapsed l ∧ s.filterDue l = true) ∨
      (c = .goPulse l ∧ (s.pace.lanes.get l).goDue = true) ∨
      (c = .goPulseEnd l ∧ (s.pace.lanes.get l).goEndDue = true) ∨
      (c = .waitBlink l ∧ (s.pace.lanes.get l).blinkDue = true) := by
  simp only [State.laneDue, List.mem_append, mem_dueIf, or_assoc]

theorem State.mem_due (s : State) (c : Instr) : c ∈ s.due ↔ (c = .windowEnd ∧ s.windowDue = true) ∨
    (c = .applyComplete ∧ s.applyDue = true) ∨ ∃ l, c ∈ s.laneDue l := by
  have h : (∃ l, c ∈ s.laneDue l) ↔ c ∈ s.laneDue .l0 ∨ c ∈ s.laneDue .l1 :=
    ⟨fun ⟨l, hl⟩ => by cases l; exacts [.inl hl, .inr hl], fun h => h.elim (⟨_, ·⟩) (⟨_, ·⟩)⟩
  simp only [State.due, List.mem_append, mem_dueIf, h, or_assoc]

/-! ### The lanes and the lamps -/

theorem State.laneTicked_facts (s : State) (l : Lane) :
    s.laneTicked l = { s.lane l with
      transfer := (s.laneTicked l).transfer, launch := (s.laneTicked l).launch
      buttonFilter := (s.laneTicked l).buttonFilter } ∧
    (s.transferDue l = true → (s.laneTicked l).transfer = (s.lane l).transfer) ∧
    (s.transferDue l = false → (s.laneTicked l).transfer = (s.lane l).transfer.map (· + 1)) ∧
    (∀ e, (s.lane l).launch = some e → e.aborted = false → s.mergeDue l = false →
      (s.laneTicked l).launch = some { e with timer := e.timer + 1 }) ∧
    ((s.mergeDue l = true ∨ (s.lane l).launchRuns = false) → (s.laneTicked l).launch = (s.lane l).launch) ∧
    (s.laneTicked l).buttonFilter = (s.lane l).buttonFilter +
      (if s.pins.button.get l = false ∧ (s.lane l).buttonFilter < 19 then 1 else 0) := by
  refine ⟨rfl, fun h => if_pos h, fun h => if_neg (by rw [h]; exact Bool.false_ne_true), fun e he ha hm => ?_,
    fun h => ?_, ?_⟩
  · refine (if_neg (by rw [hm]; exact Bool.false_ne_true)).trans ?_
    rw [he]
    simp [ha]
  · by_cases hm : s.mergeDue l = true
    · exact if_pos hm
    · refine (if_neg hm).trans ?_
      have hr := h.resolve_left hm
      unfold LaneCtl.launchRuns at hr
      cases he : (s.lane l).launch with
      | none => rfl
      | some e =>
        rw [he] at hr
        have ha : e.aborted = true := by simpa using hr
        simp [ha]
  · have h1 := s.filterDue_iff l
    have h2 := s.filterRuns_iff l
    have h3 : (s.filterRuns l && !s.filterDue l) = true ↔
        s.pins.button.get l = false ∧ (s.lane l).buttonFilter < 19 := by
      rw [Bool.and_eq_true, Bool.not_eq_true', Bool.eq_false_iff, ne_eq, h1, h2]
      exact ⟨fun ⟨⟨hb, h⟩, hn⟩ => ⟨hb, by have : ¬ (s.lane l).buttonFilter = 19 := fun e => hn ⟨hb, e⟩; omega⟩,
        fun ⟨hb, h⟩ => ⟨⟨hb, by omega⟩, fun ⟨_, e⟩ => by omega⟩⟩
    change (if s.filterRuns l && !s.filterDue l then (s.lane l).buttonFilter + 1 else (s.lane l).buttonFilter) = _
    by_cases hc : s.pins.button.get l = false ∧ (s.lane l).buttonFilter < 19
    · rw [if_pos (h3.2 hc), if_pos hc]
    · rw [if_neg fun h => hc (h3.1 h), if_neg hc]
      rfl

theorem PaceLane.ticked_facts (p : PaceLane) :
    p.ticked = { p with pulse := p.ticked.pulse, blink := p.ticked.blink } ∧
    (p.goDue = true → p.ticked.pulse = max p.pulse (interval p.index)) ∧
    (p.aspect = .go → p.goDue = false → p.goEndDue = false → p.ticked.pulse = p.pulse + 1) ∧
    ((p.aspect ≠ .go ∨ p.goEndDue = true) → p.ticked.pulse = p.pulse) ∧
    (p.aspect = .wait → p.blinkDue = false → p.ticked.blink = p.blink + 1) ∧
    ((p.aspect ≠ .wait ∨ p.blinkDue = true) → p.ticked.blink = p.blink) := by
  refine ⟨rfl, fun h => ?_, fun ha h1 h2 => ?_, fun h => if_pos h, fun ha h => ?_, fun h => ?_⟩
  · have hn : ¬ (p.aspect ≠ .go ∨ p.goEndDue = true) := by
      obtain ⟨ha, hi⟩ := p.goDue_iff.1 h
      rw [p.goEndDue_iff]
      rintro (e | ⟨-, e, -⟩)
      · exact e ha
      · omega
    exact (if_neg hn).trans (if_pos h)
  · refine (if_neg ?_).trans (if_neg (by rw [h1]; exact Bool.false_ne_true))
    rw [h2]
    rintro (e | e)
    · exact e ha
    · exact Bool.false_ne_true e
  · exact if_pos (by simp [ha, h])
  · refine if_neg ?_
    rcases h with h | h
    · simp [h]
    · simp [h]

/-- Settles O4: the tick's equation and which timers fall due. -/
theorem tickMovesTimersAndQueuesExpiries : Obligations.TickMovesTimersAndQueuesExpiries := by
  unfold Obligations.TickMovesTimersAndQueuesExpiries
  intro s hp
  refine ⟨fun hr => ?_, fun hr => ?_⟩
  · simp only [step, hp, hr, if_true]
  · intro windowDue applyDue transferDue mergeDue filterDue pulse goDue goEndDue blinkDue
    have hw : s.windowDue = true ↔ windowDue := s.windowDue_iff
    have ha : s.applyDue = true ↔ applyDue := s.applyDue_iff
    have ht : ∀ l, s.transferDue l = true ↔ transferDue l := s.transferDue_iff
    have hm : ∀ l, s.mergeDue l = true ↔ mergeDue l := s.mergeDue_iff
    have hf : ∀ l, s.filterDue l = true ↔ filterDue l := s.filterDue_iff
    have hg : ∀ l, (s.pace.lanes.get l).goDue = true ↔ goDue l := fun l => (s.pace.lanes.get l).goDue_iff
    have he : ∀ l, (s.pace.lanes.get l).goEndDue = true ↔ goEndDue l := fun l => (s.pace.lanes.get l).goEndDue_iff
    have hb : ∀ l, (s.pace.lanes.get l).blinkDue = true ↔ blinkDue l := fun l => (s.pace.lanes.get l).blinkDue_iff
    have hstep : step s = .next s.tickMs := by simp only [step, hp, hr, Bool.false_eq_true, if_false]
    obtain ⟨n, e⟩ := s.tickMs_eq
    generalize s.tickMs = t at hstep e
    have hl : ∀ l, t.lane l = s.laneTicked l := fun l => by rw [e]; cases l <;> rfl
    have hpl : ∀ l, t.pace.lanes.get l = (s.pace.lanes.get l).ticked := fun l => by rw [e]; cases l <;> rfl
    have hperm := s.freeOrder_perm s.due
    refine ⟨t, hstep, ?_, ?_, fun c => ?_, ?_, fun h => ?_, fun a h h' => ?_, fun h => ?_, by rw [e], fun l => ?_⟩
    · rw [e]
    · rw [e]
      exact hperm.nodup_iff.2 s.due_nodup
    · rw [e]
      simp only [hperm.mem_iff, s.mem_due, s.mem_laneDue, hw, ha, ht, hm, hf, hg, he, hb]
    · rw [e]
      change (if s.windowDue then s.loop.windowTimer else s.loop.windowTimer + 1) = _
      by_cases h : s.loop.windowTimer < 99
      · rw [if_neg (by rw [s.windowDue_iff]; omega), if_pos h]
      · rw [if_pos (by rw [s.windowDue_iff]; omega), if_neg h]
        rfl
    · rw [e]
      exact if_pos (ha.2 h)
    · rw [e]
      refine (if_neg fun x => h (ha.1 x)).trans ?_
      rw [h']
      rfl
    · rw [e]
      change (if s.applyDue then s.table.applying else s.table.applying.map _) = none
      rw [h]
      exact ite_self _
    · have hno : ∀ {b : Bool} {P : Prop}, (b = true ↔ P) → ¬ P → b = false := fun h hn =>
        Bool.eq_false_iff.2 fun x => hn (h.1 x)
      obtain ⟨a1, a2, a3, a4, a5, a6⟩ := s.laneTicked_facts l
      obtain ⟨p1, p2, p3, p4, p5, p6⟩ := (s.pace.lanes.get l).ticked_facts
      rw [hl l, hpl l]
      exact ⟨a1, p1, fun h => a2 ((ht l).2 h), fun h => a3 (hno (ht l) h), fun x h1 h2 h3 => a4 x h1 h2 (hno (hm l) h3),
        fun h => a5 (h.imp_left (hm l).2), a6, fun h => p2 ((hg l).2 h),
        fun h1 h2 h3 => p3 h1 (hno (hg l) h2) (hno (he l) h3), fun h => p4 (h.imp_right (he l).2),
        fun h1 h2 => p5 h1 (hno (hb l) h2), fun h => p6 (h.imp_right (hb l).2)⟩

end Sys2Proof.Machine
end

section
/-! PROOF. The tray events of a newly reached position: the check event of a record that is not OWN, the
arrival and the zone exit (R22 to R24, R27 to R29). -/

open Sys2Proof Sys2Proof.Machine

namespace Sys2Proof.Machine

/-! ### One tray event at a quiet position -/

theorem State.setSeen_eq {s : State} {k : Nat} {r : TrayRec} (h : s.tray? k = some r) (v : Seen) :
    s.setSeen k v = { s with trays := s.trays.set k { r with seen := v } } := by
  obtain ⟨hk, he⟩ := List.getElem?_eq_some_iff.mp h
  simp only [State.setSeen, State.modTray, State.setTrays, State.mk.injEq, and_true, true_and]
  have h' : s.trays[k]? = some r := h
  rw [List.modify_eq_set_getElem?, h']
  rfl

/-- A count that reaches a position with one tray event and nothing else: the event is the tray event's
alone, where it ends no plan and no planning follows. -/
theorem exec_trayEvent {s : State} {e : TrayEvent} {chk lvl : Bool} (hq : s.reachesQuietly = true)
    (he : s.trayEventsAt s.nextS = [e]) (ho : s.table.station = .online) {v : State}
    (hv : (s.advanced chk lvl).trayEvent e = v) (ht : v.table = s.table)
    (hn : v.countDoubt.PlansNothing s (s.countArrives true)) :
    ∃ t, exec (.encoderCount true chk lvl) s = .next t ∧ EventEnd v.countDoubt t := by
  have hne : v.countDoubt.table.station ≠ .leaving := by
    have : v.countDoubt.table = s.table := ht
    rw [this, ho]
    nofun
  have hx := exec_reachesQuietly hq chk lvl
  have he' : (s.advanced chk lvl).trayEventsAt s.nextS = [e] := he
  have hv' : (s.advanced chk lvl).trayEvents s.nextS = v := (State.trayEvents_one he').trans hv
  rw [hv'] at hx
  exact ⟨_, hx, State.settle_end hn (State.leavesNothing_of_not_leaving hne s false)⟩

/-! ### The check event -/

/-- A check event by the levels sampled. -/
def State.checkAs (s : State) (k : Nat) (r : TrayRec) (chk lvl : Bool) : State :=
  if lvl then if chk then s.checkOccupied k r else s.checkFree k r else s.checkNotLevel k r

theorem State.checkEvent_eq {s : State} {k : Nat} {r : TrayRec} (hm : s.mapInUse = true)
    (hr : s.tray? k = some r) : s.checkEvent k = s.checkAs k r s.pins.chk s.pins.lvl := by
  simp only [State.checkEvent, hm, hr, if_true, State.checkAs]
  cases s.pins.lvl <;> rfl

/-- The check event at a quiet position on a station ONLINE is what it does on a state that differs from the
present one in counts and levels alone. -/
theorem exec_check {s : State} {k : Nat} {r : TrayRec} (chk lvl : Bool) (hq : s.reachesQuietly = true)
    (he : s.trayEventsAt s.nextS = [.check k]) (ho : s.table.station = .online) (hr : s.tray? k = some r) :
    ∃ a : State, (a.trays = s.trays ∧ a.txq = s.txq ∧ a.rep = s.rep ∧ a.plans = s.plans ∧ a.line = s.line ∧
        a.table = s.table ∧ a.lanes = s.lanes ∧ a.trig = s.trig ∧ a.pins.chk = chk) ∧
      ∀ v, a.checkAs k r chk lvl = v → v.plans = s.plans → v.table = s.table →
        ∃ t, exec (.encoderCount true chk lvl) s = .next t ∧ EventEnd v.countDoubt t := by
  have hm : (s.advanced chk lvl).mapInUse = true := by
    have hu : s.mapInUse = true := by simp [State.mapInUse, ho]
    exact hu
  refine ⟨s.advanced chk lvl, ⟨rfl, rfl, rfl, rfl, rfl, rfl, rfl, rfl, rfl⟩, fun v hv hp ht => ?_⟩
  have ha : s.countArrives true = false := State.countArrives_of_no_arrival (by rw [he]; simp) true
  exact exec_trayEvent hq he ho ((State.checkEvent_eq hm hr).trans hv) ht
    (by rw [ha]; exact State.plansNothing_of_plans hp)

/-- R24, R27: the record takes a new condition. -/
theorem State.recond_checked {a s : State} {k : Nat} {r : TrayRec} (hr : s.tray? k = some r)
    (ht : a.trays = s.trays) (c : Cond) (seen : Seen) :
    (a.recond k c seen none).tray? k =
      some { cond := c, seen := seen, holder := none, partner := none, plan := none } :=
  State.recond_trayRec_self ((congrArg (·[k]?) ht).trans hr) c seen none

/-- A frame placed at a queue with room, on a record that has just been changed. -/
theorem State.recond_placed {a s : State} {k : Nat} {c : Cond} {seen : Seen} {kind : FrameKind}
    (hq : a.txq = s.txq) (hl : a.line = s.line) (he : s.line.enabled = true)
    (ht : s.hasTwin (plainEntry kind k .one) = false) (hlen : s.txq.length < 8) :
    (a.recond k c seen none).placeFrame kind k .one =
      (a.recond k c seen none).appendEntry (plainEntry kind k .one) := by
  have e := a.recond_eq k c seen none
  exact State.placeFrame_of_room (by rw [e]; exact hl ▸ he)
    ((State.hasTwin_congr ((congrArg State.txq e).trans hq) _).trans ht) (by rw [e]; exact hq ▸ hlen)

/-- R28: the sample is noted and nothing else. -/
theorem State.checkAs_noted {a : State} {k : Nat} {r : TrayRec} {chk lvl : Bool} (hc : a.pins.chk = chk)
    (h : (chk = true ∧ lvl = true ∧ (r.cond = .heldAhead ∨ r.cond = .loadedAhead ∨ r.cond = .stray)) ∨
      (chk = false ∧ lvl = true ∧ (r.cond = .opened ∨ r.cond = .heldAhead ∨ r.cond = .heldBehind)) ∨
      (lvl = true ∧ (r.cond = .learning ∨ r.cond = .passed)) ∨ r.cond = .defective) :
    a.checkAs k r chk lvl = a.setSeen k (if chk then .occupied else .free) := by
  rcases h with ⟨h1, h2, h3⟩ | ⟨h1, h2, h3⟩ | ⟨h2, h3⟩ | h3
  · subst h1 h2
    rcases h3 with e | e | e <;> simp [State.checkAs, State.checkOccupied, e]
  · subst h1 h2
    rcases h3 with e | e | e <;> simp [State.checkAs, State.checkFree, e]
  · subst h2
    cases chk <;> rcases h3 with e | e <;> simp [State.checkAs, State.checkOccupied, State.checkFree, e]
  · cases lvl
    · simp [State.checkAs, State.checkNotLevel, h3, hc, sampleSeen]
    · cases chk <;> simp [State.checkAs, State.checkOccupied, State.checkFree, h3]

/-- Settles O18: each case is the record's change with its frame, on a state that differs in counts alone. -/
theorem checkEventReconcilesRecord : Obligations.CheckEventReconcilesRecord := by
  unfold Obligations.CheckEventReconcilesRecord
  intro s k r hq he ho hr hen hlen
  refine ⟨fun hc ht => ?_, fun chk hown hdef ht => ?_, fun hc => ?_, fun hc => ?_, fun chk lvl hc => ?_⟩
  · obtain ⟨a, ⟨htr, htx, hrep, hp, hl, htab, -⟩, hx⟩ := exec_check true true hq he ho hr
    have hv : a.checkAs k r true true =
        (a.recond k .stray .occupied none).appendEntry (plainEntry .occupied k .one) := by
      rw [← State.recond_placed htx hl hen ht hlen]
      rcases hc with e | e <;> simp [State.checkAs, State.checkOccupied, e]
    have h1 := State.recond_checked hr htr .stray .occupied
    rw [State.recond_eq] at hv h1
    rw [State.appendEntry_eq] at hv
    obtain ⟨t, h, e⟩ := hx _ hv hp htab
    exact ⟨t, h, (e.tray k).trans h1, e.txq.trans (congrArg (· ++ _) htx), e.rep.trans hrep, e.plans.trans hp⟩
  · obtain ⟨a, ⟨htr, htx, hrep, hp, hl, htab, -, -, hchk⟩, hx⟩ := exec_check chk false hq he ho hr
    have hv : a.checkAs k r chk false = ((a.recond k .defective (sampleSeen chk) none).appendEntry
        (plainEntry .defect k .one)).queueReport (.defect k .own) := by
      rw [← State.recond_placed htx hl hen ht hlen]
      simp [State.checkAs, State.checkNotLevel, hown, hdef, hchk]
    have h1 := State.recond_checked hr htr .defective (sampleSeen chk)
    rw [State.recond_eq] at hv h1
    rw [State.appendEntry_eq] at hv
    obtain ⟨t, h, e⟩ := hx _ hv hp htab
    exact ⟨t, h, (e.tray k).trans h1, e.txq.trans (congrArg (· ++ _) htx),
      e.rep.trans (State.queueReport_rep_congr hrep _), e.plans.trans hp⟩
  · obtain ⟨a, ⟨htr, htx, hrep, hp, hl, htab, -, -, hchk⟩, hx⟩ := exec_check false true hq he ho hr
    have hra : a.tray? k = some r := (congrArg (·[k]?) htr).trans hr
    have hv := (State.checkAs_noted hchk (.inr (.inl ⟨rfl, rfl, .inl hc⟩))).trans (State.setSeen_eq hra _)
    obtain ⟨t, h, e⟩ := hx _ hv hp htab
    refine ⟨t, h, (e.tray k).trans ?_, e.txq.trans htx, e.rep.trans hrep, e.plans.trans hp⟩
    exact List.getElem?_set_self (List.getElem?_eq_some_iff.mp hra).1
  · obtain ⟨a, ⟨htr, htx, hrep, hp, hl, htab, -⟩, hx⟩ := exec_check false true hq he ho hr
    have hv : a.checkAs k r false true =
        (if r.cond = .loadedAhead then a.queueReport (.mismatch k .emptyLoaded) else a).recond k .opened .free
          none := by
      rcases hc with e | e <;> simp [State.checkAs, State.checkFree, e]
    have hb : ∀ b : State, b.trays = s.trays → (b.recond k .opened .free none).tray? k = _ :=
      fun b hb => State.recond_checked hr hb .opened .free
    have hrep' : (if r.cond = .loadedAhead then a.queueReport (.mismatch k .emptyLoaded) else a).rep =
        (if r.cond = .loadedAhead then s.queueReport (.mismatch k .emptyLoaded) else s).rep := by
      split
      · exact State.queueReport_rep_congr hrep _
      · exact hrep
    obtain ⟨b, hbe, hb1⟩ : ∃ b : State, b =
        (if r.cond = .loadedAhead then a.queueReport (.mismatch k .emptyLoaded) else a) ∧
        b = { a with rep := b.rep } := ⟨_, rfl, by split <;> rfl⟩
    rw [← hbe] at hv hrep'
    have h1 := hb b (by rw [hb1]; exact htr)
    rw [State.recond_eq] at hv h1
    obtain ⟨t, h, e⟩ := hx _ hv (by rw [hb1]; exact hp) (by rw [hb1]; exact htab)
    exact ⟨t, h, (e.tray k).trans h1, e.rep.trans hrep', e.txq.trans (by rw [hb1]; exact htx),
      e.plans.trans (by rw [hb1]; exact hp)⟩
  · obtain ⟨a, ⟨htr, htx, hrep, hp, hl, htab, -, -, hchk⟩, hx⟩ := exec_check chk lvl hq he ho hr
    have hra : a.tray? k = some r := (congrArg (·[k]?) htr).trans hr
    have hv := (State.checkAs_noted hchk (hc.imp id (Or.imp (fun ⟨h1, h2, h3⟩ => ⟨h1, h2, .inr h3⟩) id))).trans
      (State.setSeen_eq hra _)
    obtain ⟨t, h, e⟩ := hx _ hv hp htab
    exact ⟨t, h, e.trays.trans (congrArg (List.set · k _) htr), e.txq.trans htx, e.rep.trans hrep,
      e.plans.trans hp⟩

/-! ### Arrival and zone exit (R22, R29) -/

theorem State.offered_congr {s t : State} (hl : t.lanes = s.lanes) (ht : t.table = s.table) (l : Lane) :
    t.offered l = s.offered l := by
  unfold State.offered State.online State.lane
  rw [hl, ht]

theorem State.arrival_passes {s : State} {k : Nat} {r : TrayRec} (hm : s.mapInUse = true)
    (hr : s.tray? k = some r) (ho : r.cond ≠ .own) (hd : r.cond ≠ .defective) (hl : r.cond ≠ .learning) :
    s.arrival k = s.recond k .passed r.seen none := by
  cases hc : r.cond <;> simp_all [State.arrival]

theorem State.zoneExitRecord_defective {s : State} {k : Nat} {r : TrayRec} (hr : s.tray? k = some r)
    (hd : r.cond = .defective) : s.zoneExitRecord k = s.setSeen k .none := by
  simp only [State.zoneExitRecord, hr, hd]

theorem State.zoneExitRecord_opens {s : State} {k : Nat} {r : TrayRec} (hr : s.tray? k = some r)
    (hd : r.cond ≠ .defective) (ho : r.cond ≠ .own) :
    s.zoneExitRecord k = s.recond k .opened .none none := by
  cases hc : r.cond <;> simp_all [State.zoneExitRecord]

/-- A zone exit without a frame waiting for the tray is its record's. -/
theorem State.zoneExit_of_fresh {s : State} {k : Nat} (hm : s.mapInUse = true) (h : s.staleEntries k = [])
    (hq : (s.zoneExitRecord k).txq = s.txq) : s.zoneExit k = s.zoneExitRecord k := by
  have hc : s.zoneExitContested k = false := by simp [State.zoneExitContested, h]
  have h' : (s.zoneExitRecord k).staleEntries k = [] := by rw [State.staleEntries, hq]; exact h
  have hn : ((s.zoneExitRecord k).staleEntries k).length ≤ 1 := by simp [h']
  simp only [State.zoneExit, hm, hc, if_true, State.dropStaleAll]
  rw [State.freeOrder_of_short _ hn, State.afterOrder_of_short _ hn, h']
  rfl

/-- A tray event that changes records alone, where no lane offers a parcel. -/
theorem exec_recordEvent {s v : State} {e : TrayEvent} {chk lvl : Bool} (hq : s.reachesQuietly = true)
    (he : s.trayEventsAt s.nextS = [e]) (ho : s.table.station = .online) (hoff : ∀ l, s.offered l = [])
    (hv : (s.advanced chk lvl).trayEvent e = v) (hs : v = { s.advanced chk lvl with trays := v.trays }) (k : Nat) :
    ∃ t, exec (.encoderCount true chk lvl) s = .next t ∧ t.tray? k = v.tray? k ∧ t.txq = s.txq ∧
      t.plans = s.plans := by
  have hf : v.lanes = s.lanes ∧ v.table = s.table ∧ v.txq = s.txq ∧ v.plans = s.plans := by
    rw [hs]
    exact ⟨rfl, rfl, rfl, rfl⟩
  obtain ⟨hl, ht, hx, hp⟩ := hf
  have hn : v.countDoubt.PlansNothing s (s.countArrives true) :=
    .inr (.inr fun l => (State.offered_congr (s := s) (t := v.countDoubt) hl ht l).trans (hoff l))
  obtain ⟨t, h, ev⟩ := exec_trayEvent hq he ho hv ht hn
  exact ⟨t, h, ev.tray k, ev.txq.trans hx, ev.plans.trans hp⟩

/-- Settles O20: the record's change, and no planning where no lane offers a parcel. -/
theorem arrivalAndZoneExitMoveRecord : Obligations.ArrivalAndZoneExitMoveRecord := by
  unfold Obligations.ArrivalAndZoneExitMoveRecord
  intro s k r chk lvl hq ho hr hoff
  have hm : (s.advanced chk lvl).mapInUse = true := by
    have hu : s.mapInUse = true := by simp [State.mapInUse, ho]
    exact hu
  have hra : (s.advanced chk lvl).tray? k = some r := hr
  refine ⟨fun he hown hdef hlearn => ?_, fun he hst hown => ?_⟩
  · obtain ⟨t, h, h1, h2⟩ := exec_recordEvent hq he ho hoff (State.arrival_passes hm hra hown hdef hlearn)
      (State.recond_eq _ k _ _ _) k
    exact ⟨t, h, h1.trans (State.recond_trayRec_self hra ..), h2⟩
  · have hzone : ∀ v : State, (s.advanced chk lvl).zoneExitRecord k = v →
        v = { s.advanced chk lvl with trays := v.trays } → (s.advanced chk lvl).zoneExit k = v := fun v hv hs =>
      (State.zoneExit_of_fresh hm hst (by rw [hv, hs])).trans hv
    by_cases hdef : r.cond = .defective
    · have hv := State.setSeen_eq hra .none
      obtain ⟨t, h, h1, h2⟩ := exec_recordEvent hq he ho hoff
        (hzone _ ((State.zoneExitRecord_defective hra hdef).trans hv) rfl) rfl k
      rw [if_pos hdef]
      exact ⟨t, h, h1.trans (List.getElem?_set_self (List.getElem?_eq_some_iff.mp hra).1), h2⟩
    · have hv := State.zoneExitRecord_opens hra hdef hown
      obtain ⟨t, h, h1, h2⟩ := exec_recordEvent hq he ho hoff (hzone _ hv (State.recond_eq _ k _ _ _))
        (State.recond_eq _ k _ _ _) k
      rw [if_neg hdef]
      exact ⟨t, h, h1.trans (State.recond_trayRec_self hra ..), h2⟩

end Sys2Proof.Machine
end

section
/-! PROOF. Lock loss (R7) by each of its causes (R2, R4, R6), with what it leaves of the loop, the plans and
the records (R35, R127, R167). -/

open Sys2Proof Sys2Proof.Machine

namespace Sys2Proof.Machine

/-! ### Plans whose aim marks alone move -/

/-- R127: every LAUNCHED plan's aim counts as reached, and nothing else of a plan changes. -/
theorem State.markAimsReached_plan (s : State) (l : Lane) (sl : Slot) :
    s.markAimsReached.plan l sl = (s.plan l sl).map fun p =>
      if p.state = .launched then { p with aimReached := true } else p := by
  cases l <;> cases sl <;> rfl

/-- An aim reached (R12) at a slot where one is held at the position. -/
def State.aimStep (p : Nat) (s : State) (x : Lane × Slot) : State :=
  if s.aims.get x.1 x.2 = some p then s.reachAim x.1 x.2 else s

theorem State.aimStep_self (s : State) (p : Nat) (l : Lane) (sl : Slot) :
    (s.aimStep p (l, sl)).aims.get l sl = (if s.aims.get l sl = some p then none else s.aims.get l sl) ∧
    (s.aimStep p (l, sl)).plan l sl = if s.aims.get l sl = some p then
        (s.plan l sl).map fun q => { q with aimReached := true } else s.plan l sl := by
  unfold State.aimStep State.reachAim
  split
  · exact ⟨by cases l <;> cases sl <;> rfl, State.setPlan_plan_self _ l sl _⟩
  · exact ⟨rfl, rfl⟩

theorem State.aimStep_other (s : State) (p : Nat) {l m : Lane} {sl sm : Slot} (h : (m, sm) ≠ (l, sl)) :
    (s.aimStep p (m, sm)).aims.get l sl = s.aims.get l sl ∧ (s.aimStep p (m, sm)).plan l sl = s.plan l sl := by
  unfold State.aimStep
  split
  · exact ⟨Four.get_set_ne _ _ h.symm, Four.get_set_ne _ _ h.symm⟩
  · exact ⟨rfl, rfl⟩

theorem State.aimSteps (p : Nat) (l : Lane) (sl : Slot) : ∀ (xs : List (Lane × Slot)) (s : State),
    (xs.foldl (State.aimStep p) s).aims.get l sl =
        (if (l, sl) ∈ xs ∧ s.aims.get l sl = some p then none else s.aims.get l sl) ∧
      (xs.foldl (State.aimStep p) s).plan l sl =
        if (l, sl) ∈ xs ∧ s.aims.get l sl = some p then
          (s.plan l sl).map fun q => { q with aimReached := true } else s.plan l sl
  | [], s => ⟨by simp, by simp⟩
  | (m, sm) :: xs, s => by
    rw [List.foldl_cons]
    obtain ⟨h1, h2⟩ := State.aimSteps p l sl xs (s.aimStep p (m, sm))
    rw [h1, h2]
    by_cases e : (m, sm) = (l, sl)
    · obtain ⟨rfl, rfl⟩ := Prod.mk.inj e
      obtain ⟨g1, g2⟩ := s.aimStep_self p m sm
      rw [g1, g2]
      by_cases ha : s.aims.get m sm = some p <;> simp [ha]
    · obtain ⟨g1, g2⟩ := s.aimStep_other p e
      rw [g1, g2]
      simp [Ne.symm e]

/-- R12: an aim held at the position leaves its entry. -/
theorem State.reachAimsAt_aims (s : State) (p : Nat) (l : Lane) (sl : Slot) :
    (s.reachAimsAt p).aims.get l sl = if s.aims.get l sl = some p then none else s.aims.get l sl := by
  refine (State.aimSteps p l sl allSlots s).1.trans ?_
  cases l <;> cases sl <;> simp [allSlots]

/-- R12: the plans whose aims are held at the position count as having reached them. -/
theorem State.reachAimsAt_plan (s : State) (p : Nat) (l : Lane) (sl : Slot) :
    (s.reachAimsAt p).plan l sl =
      if s.aims.get l sl = some p then (s.plan l sl).map fun q => { q with aimReached := true }
      else s.plan l sl := by
  refine (State.aimSteps p l sl allSlots s).2.trans ?_
  cases l <;> cases sl <;> simp [allSlots]

/-- The slot of a plan, by the tags of the lane's plans. -/
theorem State.slotOf?_eq (s : State) (l : Lane) (t : Tag) :
    s.slotOf? l t = if (s.plan l .s0).map Plan.tag = some t then some .s0
      else if (s.plan l .s1).map Plan.tag = some t then some .s1 else none := by
  unfold State.slotOf?
  cases s.plan l .s0 <;> cases s.plan l .s1 <;> simp

theorem State.planStateOf?_congr {s t : State}
    (ht : ∀ l sl, (t.plan l sl).map Plan.tag = (s.plan l sl).map Plan.tag)
    (hs : ∀ l sl, (t.plan l sl).map Plan.state = (s.plan l sl).map Plan.state)
    (r : TrayRec) : t.planStateOf? r = s.planStateOf? r := by
  have hp : ∀ ref : PlanRef, (t.planOf? ref).map Plan.state = (s.planOf? ref).map Plan.state := fun ref => by
    have e : t.slotOf? ref.lane ref.tag = s.slotOf? ref.lane ref.tag := by
      rw [State.slotOf?_eq, State.slotOf?_eq, ht, ht]
    unfold State.planOf?
    rw [e]
    cases s.slotOf? ref.lane ref.tag with
    | none => rfl
    | some sl => exact hs ref.lane sl
  unfold State.planStateOf?
  cases r.plan with
  | none => rfl
  | some ref => exact hp ref

theorem State.reachAimsAt_planStateOf? (s : State) (p : Nat) (r : TrayRec) :
    (s.reachAimsAt p).planStateOf? r = s.planStateOf? r := by
  refine State.planStateOf?_congr (fun l sl => ?_) (fun l sl => ?_) r <;>
    rw [State.reachAimsAt_plan] <;> split <;> simp [Function.comp_def]

/-! ### What a lock loss leaves -/

/-- The state a lock loss finds: that of the event's beginning in what the loss reads of it. -/
structure AtLoss (s a : State) : Prop where
  vs : a.loop.vs = s.loop.vs
  rep : a.rep = s.rep
  trays : a.trays = s.trays
  table : a.table = s.table
  planState : ∀ r, a.planStateOf? r = s.planStateOf? r

/-- A lock loss up to the records: the counts and entries cleared, LOST reported. -/
def State.lossReported (s : State) : State :=
  (((s.modLoop LoopTracker.unlock).setTrig (.all none)).setAims (.all none)).queueReport (.loop .unlocked .lost)

/-- A lock loss after the records. -/
def State.lossRecorded (s : State) : State :=
  if s.lossReported.mapInUse then s.lossReported.lockLostTrays else s.lossReported

theorem State.lockLost_eq (s : State) :
    s.lockLost = ((s.lossRecorded.withdrawAll.markAimsReached).paceRestart .l0).paceRestart .l1 := rfl

theorem State.lockLost_trays (s : State) : s.lockLost.trays = s.lossRecorded.withdrawAll.trays := by
  rw [State.lockLost_eq]
  generalize s.lossRecorded.withdrawAll = u
  have h : u.markAimsReached.trays = u.trays := by rw [State.markAimsReached_eq, State.setPlans_trays]
  generalize u.markAimsReached = v at h ⊢
  exact h

theorem State.lockLost_table (s : State) : s.lockLost.table = s.table := by
  obtain ⟨u, w, e⟩ := s.lockLost_planWork
  rw [e]
  exact w.table

theorem State.lockLost_grows (s : State) :
    RepGrows (s.queueReport (.loop .unlocked .lost)).rep s.lockLost.rep := by
  obtain ⟨u, w, e⟩ := s.lockLost_planWork
  rw [e]
  exact w.rep

/-- R127, R167: a plan that lives on is LAUNCHED, and its aim counts as reached. -/
theorem State.lockLost_plan {s : State} {l : Lane} {sl : Slot} {p : Plan} (h : s.lockLost.plan l sl = some p) :
    p.state = .launched ∧ p.aimReached = true := by
  have h' : s.lossRecorded.withdrawAll.markAimsReached.plan l sl = some p := h
  rw [State.markAimsReached_plan] at h'
  obtain ⟨q, hq, rfl⟩ := Option.map_eq_some_iff.1 h'
  have hl : q.state = .launched := s.lossRecorded.withdrawAll_onlyLaunched l sl q hq
  simp [hl]

/-- R35: a record at lock loss, on a map in use. -/
theorem State.lockLost_record {s : State} (hm : s.mapInUse = true) {k : Nat} {r : TrayRec}
    (hr : s.tray? k = some r) :
    ∃ q, s.lockLost.tray? k = some q ∧
      (r.cond ≠ .defective → ¬ (r.cond = .own ∧ s.planStateOf? r = some .launched) →
        q = { cond := .learning, seen := r.seen, holder := none, partner := none, plan := none }) ∧
      (r.cond = .defective → q.cond = .defective ∧ q.seen = r.seen) := by
  have hm' : s.lossReported.mapInUse = true := hm
  have he : s.lossRecorded = s.lossReported.lockLostTrays := if_pos hm'
  have h1 : s.lossRecorded.tray? k = some (s.lossReported.lockLostRecord r) := by
    rw [he]
    have hk : s.lossReported.trays[k]? = some r := hr
    exact (List.getElem?_map ..).trans (congrArg (Option.map _) hk)
  have hrec : s.lossReported.lockLostRecord r = s.lockLostRecord r := rfl
  rw [hrec] at h1
  have hpe : PlanEnds s.lossRecorded s.lossRecorded.withdrawAll := planEnds_workRel.withdrawAll _
  have ht : s.lockLost.tray? k = s.lossRecorded.withdrawAll.tray? k := congrArg (·[k]?) s.lockLost_trays
  rw [ht]
  by_cases hown : r.cond = .own ∧ s.planStateOf? r = some .launched
  · have hlen : k < s.lossRecorded.withdrawAll.trays.length := by
      have w : s.lossRecorded.withdrawAll.trays.length = s.lossRecorded.trays.length :=
        s.lossRecorded.withdrawAll_planWork.trays
      rw [w]
      exact (List.getElem?_eq_some_iff.1 h1).1
    refine ⟨_, List.getElem?_eq_getElem hlen, fun _ hn => absurd hown hn, fun hd => ?_⟩
    rw [hown.1] at hd
    nomatch hd
  · by_cases hd : r.cond = .defective
    · have hq : s.lockLostRecord r = r := if_pos hd
      rw [hq] at h1
      obtain ⟨q, hq, kept⟩ := hpe.records k r h1 (by rw [hd]; nofun)
      exact ⟨q, hq, fun hn => absurd hd hn, fun _ => ⟨kept.cond.trans hd, kept.seen⟩⟩
    · have hq : s.lockLostRecord r =
          { cond := .learning, seen := r.seen, holder := none, partner := none, plan := none } := by
        simp only [State.lockLostRecord, if_neg hd, if_neg hown]
      rw [hq] at h1
      obtain ⟨q, hq, kept⟩ := hpe.records k _ h1 nofun
      exact ⟨q, hq, fun _ _ => kept.eq_of_alone rfl, fun h => absurd h hd⟩

/-! ### The causes -/

theorem State.declareMissing_again {s : State} (h : s.loop.missing ≠ 0) : s.declareMissing = s.lockLost :=
  if_neg h

/-- R1, R6: the count that takes K beyond its limit with a marker missing already, whichever of its two parts
is taken first. -/
theorem State.forwardCount_loses {s : State} (hm : s.loop.missing ≠ 0)
    (ht : s.loopLength + s.cfgSlip < s.loop.travel + 1)
    (hq : s.loop.backlog = 0 → s.triggersAt s.nextS = [] ∧ s.trayEventsAt s.nextS = []) :
    ∃ a, AtLoss s a ∧ s.forwardCount = a.lockLost := by
  obtain ⟨c, hc, hcv, hcm, hct⟩ : ∃ c, (s.stepForward.modLoop fun c => { c with travel := c.travel + 1 }) =
      { s with loop := c } ∧ c.vs = s.loop.vs ∧ c.missing = s.loop.missing ∧ c.travel = s.loop.travel + 1 := by
    unfold State.stepForward
    by_cases hb : s.loop.backlog = 0 <;> simp only [State.modLoop, hb, if_true, if_false] <;>
      exact ⟨_, rfl, rfl, rfl, rfl⟩
  have ho : ({ s with loop := c } : State).markerOverdue = true := by
    refine decide_eq_true ?_
    show s.loopLength + s.cfgSlip < c.travel
    rw [hct]
    exact ht
  rw [State.forwardCount]
  dsimp only
  rw [hc]
  by_cases hb : s.loop.backlog = 0
  · obtain ⟨hr, he⟩ := hq hb
    obtain ⟨v, hv⟩ : ∃ v, v = ({ s with loop := c } : State).bumpFree := ⟨_, rfl⟩
    have hvm : v.loop.missing ≠ 0 := by rw [hv]; exact hcm ▸ hm
    have hvl : AtLoss s v := by rw [hv]; exact ⟨hcv, rfl, rfl, rfl, fun _ => rfl⟩
    have hvr : v.triggersAt s.nextS = [] := by rw [hv]; exact hr
    have hve : v.trayEventsAt s.nextS = [] := by rw [hv]; exact he
    rw [if_pos hb, if_pos ho, ← hv, State.declareMissing_again hvm]
    split
    · have hnew : v.newlyReached s.nextS = (v.reachAimsAt s.nextS).countDoubt := by
        rw [State.newlyReached, State.takeTriggersAt_nil hvr,
          State.trayEvents_nil ((v.reachAimsAt_trayEventsAt _).trans hve)]
      have hps := v.reachAimsAt_planStateOf? s.nextS
      have hf := v.reachAimsAt_eq s.nextS
      generalize v.reachAimsAt s.nextS = w at hnew hps hf
      rw [hnew]
      refine ⟨w.countDoubt, ⟨?_, ?_, ?_, ?_, fun r => (hps r).trans (hvl.planState r)⟩,
        State.declareMissing_again ?_⟩
      · rw [hf]; exact hvl.vs
      · rw [hf]; exact hvl.rep
      · rw [hf]; exact hvl.trays
      · rw [hf]; exact hvl.table
      · rw [hf]; exact hvm
    · have hn : v.lockLost.locked = false := by
        rw [State.locked, State.lockLost_loop]
        rfl
      exact ⟨v, hvl, by simp [hn]⟩
  · rw [if_neg hb, if_pos ho]
    have hcm' : c.missing ≠ 0 := hcm ▸ hm
    exact ⟨{ s with loop := c }, ⟨hcv, rfl, rfl, rfl, fun _ => rfl⟩, State.declareMissing_again hcm'⟩

theorem AtLoss.of_counted {s a : State} {chk lvl : Bool} {n : Int} {k : Nat}
    (h : AtLoss { s.counted chk lvl n with freeCount := k } a) : AtLoss s a :=
  ⟨h.vs, h.rep, h.trays, h.table, h.planState⟩

/-- R4: a marker in error by more than the slip tolerance. -/
theorem State.testMarker_loses {s : State} (h1 : 2 * s.loop.S ≤ s.loopLength → s.cfgSlip < s.loop.S)
    (h2 : s.loopLength < 2 * s.loop.S → s.cfgSlip < s.loopLength - s.loop.S) : s.testMarker = s.lockLost := by
  unfold State.testMarker
  split
  · exact if_neg (Nat.not_le.2 (h1 ‹_›))
  · exact if_neg (Nat.not_le.2 (h2 (Nat.lt_of_not_le ‹_›)))

/-- Each cause of a lock loss comes to it (R2, R4, R6). -/
theorem exec_loses {s : State} {c : Instr} (hr : s.pins.rstLow = false) (hl : s.loop.lock ≠ .unlocked)
    (h : (∃ chk lvl, c = .encoderCount false chk lvl ∧ s.loopLength / 2 < s.loop.backlog + 1) ∨
      (∃ chk lvl, c = .markerPulse chk lvl ∧
        (2 * s.loop.S ≤ s.loopLength → s.cfgSlip < s.loop.S) ∧
        (s.loopLength < 2 * s.loop.S → s.cfgSlip < s.loopLength - s.loop.S)) ∨
      (c = .markerMissing ∧ s.loop.missing ≠ 0) ∨
      (∃ chk lvl, c = .encoderCount true chk lvl ∧ s.loop.missing ≠ 0 ∧
        s.loopLength + s.cfgSlip < s.loop.travel + 1 ∧
        (s.loop.backlog = 0 → s.triggersAt s.nextS = [] ∧ s.trayEventsAt s.nextS = []))) :
    ∃ a planning, AtLoss s a ∧ exec c s = .next (a.lockLost.settle s planning false) := by
  have hll := s.locked_iff.2 hl
  rcases h with ⟨chk, lvl, rfl, hb⟩ | ⟨chk, lvl, rfl, h1, h2⟩ | ⟨rfl, hm⟩ | ⟨chk, lvl, rfl, hm, ht, hq⟩
  · obtain ⟨n, k, e⟩ := s.sample_countWindow_eq chk lvl false
    have hx := exec_encoderCount hr false chk lvl
    rw [e] at hx
    have ha : AtLoss s { s.counted chk lvl n with freeCount := k } := ⟨rfl, rfl, rfl, rfl, fun _ => rfl⟩
    have hl' : ({ s.counted chk lvl n with freeCount := k } : State).locked = true := hll
    have hb' : ({ s.counted chk lvl n with freeCount := k } : State).loopLength / 2 <
        ({ s.counted chk lvl n with freeCount := k } : State).loop.backlog + 1 := hb
    generalize ({ s.counted chk lvl n with freeCount := k } : State) = u at hx ha hl' hb'
    rw [State.loopCount, if_pos hl', if_neg (by decide), State.backwardCount, if_pos hb'] at hx
    exact ⟨u, _, ha, hx⟩
  · rw [exec_markerPulse hr, if_pos hll, State.testMarker_loses (s := s.sample chk lvl) h1 h2]
    exact ⟨s.sample chk lvl, _, ⟨rfl, rfl, rfl, rfl, fun _ => rfl⟩, rfl⟩
  · rw [exec_markerMissing hr hll, State.declareMissing_again (by exact hm)]
    exact ⟨_, _, ⟨rfl, rfl, rfl, rfl, fun _ => rfl⟩, rfl⟩
  · obtain ⟨n, k, e⟩ := s.sample_countWindow_eq chk lvl true
    obtain ⟨a, ha, hf⟩ := State.forwardCount_loses (s := { s.counted chk lvl n with freeCount := k }) hm ht hq
    rw [exec_encoderCount hr, e, State.loopCount, if_pos (by exact hll), if_pos rfl, hf]
    exact ⟨a, _, ha.of_counted, rfl⟩

/-- Settles O13: each cause comes to the same lock loss, after which nothing is planned. -/
theorem lockLossClearsTheLoop : Obligations.LockLossClearsTheLoop := by
  unfold Obligations.LockLossClearsTheLoop
  intro s c hr hl h
  obtain ⟨a, planning, ha, hx⟩ := exec_loses hr hl h
  have k := a.lockLost.settle_kept s planning false
  have ok := (State.settle_moves (C := False) (L := True) a.lockLost s planning false).loopOk a.lockLost_loopOk
  have g := a.lockLost.settle_grows s planning false
  have hloop := k.loop.trans a.lockLost_loop
  have hunl : a.lockLost.locked = false := by rw [State.locked, State.lockLost_loop]; rfl
  have hend : s.table.station = .online → EventEnd a.lockLost (a.lockLost.settle s planning false) := fun ho =>
    State.settle_end (.inr (.inl (by simp [State.mayPlan, hunl])))
      (State.leavesNothing_of_not_leaving (by rw [a.lockLost_table, ha.table, ho]; nofun) s false)
  refine ⟨_, hx, ?_⟩
  generalize a.lockLost.settle s planning false = t at k ok g hloop hend
  have hentries : t.trig = .all none ∧ t.aims = .all none := by
    rcases ok with ⟨hlock, -⟩ | ⟨-, he⟩
    · exact absurd (congrArg LoopTracker.lock hloop) hlock.locked
    · exact he
  refine ⟨by rw [hloop]; rfl, by rw [hloop]; rfl, by rw [hloop]; rfl, by rw [hloop]; rfl, by rw [hloop]; rfl,
    by rw [hloop]; exact ha.vs, hentries.1, hentries.2, fun hlen => ?_, fun ho l sl p hp => ?_, fun ho k r hk => ?_⟩
  · obtain ⟨bytes, hb⟩ := (a.lockLost_grows.trans g).fifo
    rw [hb, State.queueReport_rep, ha.rep, if_pos (by exact hlen)]
    exact List.prefix_append _ _
  · exact State.lockLost_plan (((hend ho).plan l sl).symm.trans hp)
  · have hm : a.mapInUse = true := by simp [State.mapInUse, ha.table, ho]
    obtain ⟨q, hq, h1, h2⟩ := State.lockLost_record hm ((congrArg (·[k]?) ha.trays).trans hk)
    exact ⟨q, ((hend ho).tray k).trans hq, fun hd hn => h1 hd (by rw [ha.planState]; exact hn), h2⟩

end Sys2Proof.Machine
end

section
/-! PROOF. A trigger reached that finds its parcel READY: the launch (R11, R12, R93, R130), and an aim reached
(R12, R127). -/

open Sys2Proof Sys2Proof.Machine

namespace Sys2Proof.Machine

/-! ### The launch -/

/-- The plan a launch leaves (R12, R130). -/
def State.launchedPlan (s : State) (p : Plan) : Plan :=
  { p with state := .launched, aimReached := p.aimReached || s.alreadyReached p.aim }

/-- The lane a launch leaves (R93). -/
def State.launchedLane (s : State) (l : Lane) (p : Plan) : LaneCtl :=
  { (s.lane l).modParcel p.tag (fun r => { r with place := .launching }) with
    launch := some
      { tray := p.target, span := p.span, double := false, mergeSeen := s.pins.mergeEye.get l,
        aborted := false, timer := 0 } }

theorem State.launch_eq (s : State) (l : Lane) (sl : Slot) (p : Plan) :
    s.launch l sl p = { s with
      plans := s.plans.set l sl (some (s.launchedPlan p))
      aims := if s.alreadyReached p.aim then s.aims else s.aims.set l sl (some p.aim)
      lanes := s.lanes.set l (s.launchedLane l p) } := by
  unfold State.launch State.handAim State.launchedPlan
  by_cases h : s.alreadyReached p.aim = true
  · rw [if_pos h, if_pos h, h, Bool.or_true]
    exact State.modLane_eq rfl
  · rw [if_neg h, if_neg h, Bool.eq_false_iff.2 h, Bool.or_false]
    exact State.modLane_eq rfl

theorem State.takeTrigger_launches {s : State} {l : Lane} {sl : Slot} {p : Plan} {r : Parcel}
    (hp : s.plan l sl = some p) (hc : p.state = .claimed) (hr : (s.lane l).bySlot? sl = some r)
    (hpl : r.place = .ready) :
    s.takeTrigger l sl = (s.setTrig (s.trig.set l sl none)).launch l sl p := by
  have hp' : (s.setTrig (s.trig.set l sl none)).plan l sl = some p := hp
  have hs : (s.setTrig (s.trig.set l sl none)).slotReady l sl = true := by
    have hr' : ((s.setTrig (s.trig.set l sl none)).lane l).bySlot? sl = some r := hr
    simp only [State.slotReady]
    rw [hr']
    exact beq_iff_eq.2 hpl
  unfold State.takeTrigger
  dsimp only
  rw [hp']
  dsimp only
  rw [hc]
  exact if_pos hs

theorem launchedLane_parcel {s : State} {l : Lane} {sl : Slot} {p : Plan} {r : Parcel}
    (hr : (s.lane l).bySlot? sl = some r) (ht : r.tag = p.tag) :
    { r with place := .launching } ∈ (s.launchedLane l p).parcels :=
  List.mem_map.2 ⟨r, List.mem_of_find?_eq_some hr, if_pos ht⟩

theorem forwardDistance_self {n a : Nat} (h : a < n) : forwardDistance n a a = 0 := by
  rw [forwardDistance, Nat.mod_eq_of_lt h, Nat.add_sub_cancel' h.le, Nat.mod_self]

/-! ### A position at which no tray event falls -/

/-- The state after a newly reached position without tray events and without triggers that end a plan. -/
theorem exec_position {s : State} (h : s.ReachesNext) (he : s.trayEventsAt s.nextS = []) (chk lvl : Bool)
    {b : State} (hb : (s.advanced chk lvl).takeTriggersAt s.nextS = b)
    (hbe : b.trayEventsAt s.nextS = []) (hq : b.txq = s.txq)
    (hp : ∀ l sl, (b.plan l sl).isSome = (s.plan l sl).isSome) :
    exec (.encoderCount true chk lvl) s = .next ((b.reachAimsAt s.nextS).countDoubt.settle s false false) ∧
      (b.reachAimsAt s.nextS).countDoubt.PlansNothing s false ∧
      (b.reachAimsAt s.nextS).countDoubt.LeavesNothing s false := by
  have ha : s.countArrives true = false := State.countArrives_of_no_arrival (by rw [he]; simp) true
  have hx := exec_reachesNext h chk lvl
  rw [State.newlyReached, hb, State.trayEvents_nil ((b.reachAimsAt_trayEventsAt _).trans hbe), ha] at hx
  refine ⟨hx, .inl ?_, State.leavesNothing_of_txq ?_⟩
  · rw [Bool.false_or]
    refine planEnded_of_isSome_eq fun l sl => ?_
    rw [← hp]
    show ((b.reachAimsAt s.nextS).plan l sl).isSome = _
    rw [State.reachAimsAt_plan]
    split <;> simp
  · show (b.reachAimsAt s.nextS).txq = s.txq
    rw [State.reachAimsAt_eq]
    exact hq

/-- What a launch leaves at the end of its event: the launch place is taken, so that no transfer begins. -/
theorem launched_settles {v s : State} {l : Lane} {sl : Slot} {p : Plan} {r : Parcel} {n : Nat} {a : Four (Option Nat)}
    (hr : (v.lane l).bySlot? sl = some r) (ht : r.tag = p.tag) {b : State}
    (hb : b = { v with
      plans := v.plans.set l sl (some (v.launchedPlan p)), aims := a, lanes := v.lanes.set l (v.launchedLane l p) })
    (hp : (b.reachAimsAt n).countDoubt.PlansNothing s false)
    (hq : (b.reachAimsAt n).countDoubt.LeavesNothing s false) :
    let t := (b.reachAimsAt n).countDoubt.settle s false false
    (t.lane l).launch = (v.launchedLane l p).launch ∧ (∃ q ∈ (t.lane l).parcels, q.tag = p.tag ∧ q.place = .launching) ∧
      t.trig = v.trig ∧ t.txq = v.txq ∧ t.trays = v.trays ∧ t.rep = v.rep ∧
      t.plan l sl = (if a.get l sl = some n then some { v.launchedPlan p with aimReached := true }
        else some (v.launchedPlan p)) ∧
      t.aims.get l sl = if a.get l sl = some n then none else a.get l sl := by
  have hf := b.reachAimsAt_eq n
  have h1 := b.reachAimsAt_aims n l sl
  have h2 := b.reachAimsAt_plan n l sl
  have hba : b.aims = a := by rw [hb]
  have hbp : b.plan l sl = some (v.launchedPlan p) := by
    rw [hb]
    exact Four.get_set_self ..
  rw [hba] at h1 h2
  rw [hbp] at h2
  generalize b.reachAimsAt n = w at hp hq hf h1 h2
  have hwl : w.countDoubt.lane l = v.launchedLane l p := by
    have : w.lane l = b.lane l := by rw [hf]; rfl
    refine this.trans ?_
    rw [hb]
    exact Two.get_set_self ..
  have hmem := launchedLane_parcel hr ht
  have hn : w.countDoubt.NoTransfer l := by
    refine State.noTransfer_of_launchTaken ?_
    rw [hwl]
    exact List.any_eq_true.2 ⟨_, hmem, rfl⟩
  have e := State.settle_end hp hq
  have el := State.settle_lane hp hq hn
  rw [hwl] at el
  refine ⟨(congrArg LaneCtl.launch el :), ⟨{ r with place := .launching }, ?_, ht, rfl⟩, e.trig.trans ?_, e.txq.trans ?_, e.trays.trans ?_,
    e.rep.trans ?_, (e.plan l sl).trans (h2.trans ?_), (congrArg (Four.get · l sl) e.aims).trans h1⟩
  · have hps : ((w.countDoubt.settle s false false).lane l).parcels = (v.launchedLane l p).parcels :=
      (congrArg LaneCtl.parcels el :)
    exact hps ▸ hmem
  · show w.trig = _
    rw [hf, hb]
  · show w.txq = _
    rw [hf, hb]
  · show w.trays = _
    rw [hf, hb]
  · show w.rep = _
    rw [hf, hb]
  · split <;> rfl

/-- Settles O21: the launch on the state that differs in counts and levels, then the aims at the position. -/
theorem triggerLaunchesReadyParcel : Obligations.TriggerLaunchesReadyParcel := by
  unfold Obligations.TriggerLaunchesReadyParcel
  intro s l sl p chk lvl hsound hn he hp
  have hn' := s.reachesNext_iff.1 hn
  refine ⟨fun r htrig hc hr hpl htag => ?_, fun htrig haim => ?_⟩
  · have hS : s.nextS < s.loopLength :=
      Nat.mod_lt _ (Nat.zero_lt_of_lt ((s.loopSound_iff.1 hsound).agrees hn'.locked).1.S)
    obtain ⟨v, hv⟩ : ∃ v, v = (s.advanced chk lvl).setTrig ((s.advanced chk lvl).trig.set l sl none) := ⟨_, rfl⟩
    have hb := State.takeTriggersAt_one (s := s.advanced chk lvl) htrig
    rw [State.takeTrigger_launches (s := s.advanced chk lvl) hp hc hr hpl, ← hv, State.launch_eq] at hb
    obtain ⟨a, ha⟩ : ∃ a, a = if v.alreadyReached p.aim then v.aims else v.aims.set l sl (some p.aim) := ⟨_, rfl⟩
    rw [← ha] at hb
    have hal : v.alreadyReached p.aim = decide (s.fd s.nextS p.aim = 0) := by
      have hback : v.loop.backlog = 0 := by rw [hv]; exact hn'.backlog
      have hfd : v.fd v.loop.S p.aim = s.fd s.nextS p.aim := by rw [hv]; rfl
      simp only [State.alreadyReached, hback, hfd, Nat.le_zero]
    have hlane : v.lane l = s.lane l := by rw [hv]; rfl
    have hrv : (v.lane l).bySlot? sl = some r := hlane ▸ hr
    have hmem := launchedLane_parcel hrv htag
    have hve : v.trayEventsAt s.nextS = [] := by rw [hv]; exact he
    have hvq : v.txq = s.txq := by rw [hv]; rfl
    have hvp : ∀ m k, ((v.plans.set l sl (some (v.launchedPlan p))).get m k).isSome = (s.plan m k).isSome := by
      intro m k
      by_cases e : (m, k) = (l, sl)
      · obtain ⟨rfl, rfl⟩ := Prod.mk.inj e
        rw [Four.get_set_self, hp]
        rfl
      · rw [Four.get_set_ne _ _ e, hv]
        rfl
    obtain ⟨hx, hpn, hln⟩ := exec_position hn' he chk lvl hb hve hvq hvp
    obtain ⟨h1, h2, h3, h4, h5, h6, h7, h8⟩ := launched_settles hrv htag rfl hpn hln
    refine ⟨_, hx, ?_⟩
    generalize State.settle _ s false false = t at h1 h2 h3 h4 h5 h6 h7 h8
    refine ⟨?_, (congrArg (Four.get · l sl) h3).trans ?_, h1.trans ?_, h2, fun hd => ?_, fun hd => ?_,
      h4.trans hvq, h5.trans ?_, h6.trans ?_⟩
    · rw [h7]; split <;> rfl
    · rw [hv]; exact Four.get_set_self ..
    · rw [hv]; rfl
    · have hna : v.alreadyReached p.aim = false := hal.trans (decide_eq_false hd)
      have hag : a.get l sl = some p.aim := by
        rw [ha, hna]
        exact Four.get_set_self ..
      have hne : ¬ a.get l sl = some s.nextS := by
        rw [hag]
        intro he
        rw [Option.some.inj he] at hd
        exact hd (forwardDistance_self hS)
      rw [if_neg hne] at h7 h8
      refine ⟨h8.trans hag, ?_⟩
      rw [h7]
      simp [State.launchedPlan, hna]
    · have hya : v.alreadyReached p.aim = true := hal.trans (decide_eq_true hd)
      rw [h7]
      split <;> simp [State.launchedPlan, hya]
    · rw [hv]; rfl
    · rw [hv]; rfl
  · have hb : (s.advanced chk lvl).takeTriggersAt s.nextS = s.advanced chk lvl :=
      State.takeTriggersAt_nil (s := s.advanced chk lvl) htrig
    obtain ⟨hx, hpn, hln⟩ := exec_position hn' he chk lvl hb he rfl fun _ _ => rfl
    have e := State.settle_end hpn hln
    have hf := (s.advanced chk lvl).reachAimsAt_eq s.nextS
    have h1 := (s.advanced chk lvl).reachAimsAt_aims s.nextS l sl
    have h2 := (s.advanced chk lvl).reachAimsAt_plan s.nextS l sl
    have haim' : (s.advanced chk lvl).aims.get l sl = some s.nextS := haim
    rw [if_pos haim'] at h1 h2
    generalize (s.advanced chk lvl).reachAimsAt s.nextS = v at hx e hf h1 h2
    refine ⟨_, hx, (congrArg (Four.get · l sl) e.aims).trans h1, (e.plan l sl).trans (h2.trans ?_),
      e.txq.trans ?_, e.trays.trans ?_, e.rep.trans ?_⟩
    · exact congrArg (Option.map _) hp
    all_goals rw [hf]; rfl

end Sys2Proof.Machine
end

section
/-! SUPPORT. A plan that ends by a miss with room in the queue: the miss its parcel counts, the block of a fourth,
and the lane's later plan (R98, R99, R133, R135). -/

namespace Sys2Proof.Machine

/-! ### The miss a record counts (R98) -/

/-- One miss more for the record of tag `g`. -/
def LaneCtl.missed (c : LaneCtl) (g : Tag) : LaneCtl :=
  c.modParcel g fun r => { r with misses := r.misses + 1 }

theorem LaneCtl.parcel?_modParcel {c : LaneCtl} {g : Tag} {r : Parcel} (h : c.parcel? g = some r)
    {f : Parcel → Parcel} (hf : ∀ q, (f q).tag = q.tag) : (c.modParcel g f).parcel? g = some (f r) := by
  have ht : r.tag = g := by simpa using List.find?_some h
  have hp : (fun q : Parcel => q.tag == g) ∘ (fun q => if q.tag = g then f q else q) = fun q => q.tag == g := by
    funext q
    simp only [Function.comp_apply]
    split <;> simp [hf]
  unfold LaneCtl.parcel? at h ⊢
  unfold LaneCtl.modParcel
  dsimp only
  rw [List.find?_map, hp, h, Option.map_some, if_pos ht]

/-- Short of the fourth, the miss is counted and nothing else. -/
theorem State.addMiss_counts {s : State} {l : Lane} {g : Tag} {r : Parcel} (hr : (s.lane l).parcel? g = some r)
    (hm : r.misses + 1 < 4) : s.addMiss l g = { s with lanes := s.lanes.set l ((s.lane l).missed g) } := by
  have e : s.modParcel l g (fun r => { r with misses := r.misses + 1 }) =
      { s with lanes := s.lanes.set l ((s.lane l).missed g) } := State.modLane_eq rfl
  have hp := LaneCtl.parcel?_modParcel hr (f := fun r => { r with misses := r.misses + 1 }) fun _ => rfl
  have hl : (s.modParcel l g (fun r => { r with misses := r.misses + 1 })).lane l = (s.lane l).missed g :=
    State.modLane_lane_self ..
  unfold State.addMiss
  dsimp only
  rw [hl, LaneCtl.missed, hp]
  dsimp only
  rw [if_neg (by simp only [Config.missLimit]; omega)]
  exact e

/-- The fourth miss blocks the lane. -/
theorem State.addMiss_blocks {s : State} {l : Lane} {g : Tag} {r : Parcel} (hr : (s.lane l).parcel? g = some r)
    (hm : 4 ≤ r.misses + 1) :
    s.addMiss l g = ({ s with lanes := s.lanes.set l ((s.lane l).missed g) } : State).takeBlock l .unplaceable [g] [g] := by
  have e : s.modParcel l g (fun r => { r with misses := r.misses + 1 }) =
      { s with lanes := s.lanes.set l ((s.lane l).missed g) } := State.modLane_eq rfl
  have hp := LaneCtl.parcel?_modParcel hr (f := fun r => { r with misses := r.misses + 1 }) fun _ => rfl
  have hl : (s.modParcel l g (fun r => { r with misses := r.misses + 1 })).lane l = (s.lane l).missed g :=
    State.modLane_lane_self ..
  unfold State.addMiss
  dsimp only
  rw [hl, LaneCtl.missed, hp]
  dsimp only
  rw [if_pos (by exact hm), e]
  rfl

/-- A block of a lane not STOPPED keeps its records, those of the given tags named. -/
theorem State.takeBlock_parcels {s : State} {l : Lane} (h : (s.lane l).state ≠ .stopped) (reason : BlockReason)
    (tags rejected : List Tag) :
    ((s.takeBlock l reason tags rejected).lane l).parcels = ((s.lane l).name reason tags).parcels := by
  cases hs : (s.lane l).state with
  | stopped => exact absurd hs h
  | fault =>
    have e : s.takeBlock l reason tags rejected =
        (s.modLane l fun c => c.name reason tags).rejectAll l reason.toReject rejected := by
      simp only [State.takeBlock, hs]
    rw [e, State.rejectAll_lane, State.modLane_lane_self]
  | running => rw [(s.takeBlock_lane l reason tags rejected (.inl hs)).1]
  | paused => rw [(s.takeBlock_lane l reason tags rejected (.inr (.inl hs))).1]
  | blocked => rw [(s.takeBlock_lane l reason tags rejected (.inr (.inr hs))).1]

/-- The record of tag `g` after a miss, its name aside. -/
structure MissedBy (g : Tag) (q q' : Parcel) : Prop where
  other : q.tag ≠ g → q' = q
  self : q.tag = g → q' = { q with misses := q.misses + 1, named := q'.named }

/-- R98: the miss is counted on the record, in its place in the list. -/
theorem State.addMiss_parcels {s : State} {l : Lane} {g : Tag} {r : Parcel} (hr : (s.lane l).parcel? g = some r)
    (hst : (s.lane l).state ≠ .stopped) :
    ∃ f : Parcel → Parcel, ((s.addMiss l g).lane l).parcels = (s.lane l).parcels.map f ∧ ∀ q, MissedBy g q (f q) := by
  by_cases hm : 4 ≤ r.misses + 1
  · refine ⟨fun q => if q.tag = g then { q with
        misses := q.misses + 1, named := if q.named.isNone then some .unplaceable else q.named } else q, ?_,
      fun q => ⟨fun h => if_neg h, fun h => by simp only [if_pos h]⟩⟩
    have hl : ({ s with lanes := s.lanes.set l ((s.lane l).missed g) } : State).lane l = (s.lane l).missed g :=
      Two.get_set_self ..
    rw [State.addMiss_blocks hr hm, State.takeBlock_parcels (by rw [hl]; exact hst), hl]
    simp only [LaneCtl.name, LaneCtl.missed, LaneCtl.modParcel, List.map_map]
    refine List.map_congr_left fun q _ => ?_
    by_cases hq : q.tag = g
    · subst hq
      cases hn : q.named <;> simp [hn]
    · simp [hq]
  · refine ⟨fun q => if q.tag = g then { q with misses := q.misses + 1 } else q, ?_,
      fun q => ⟨fun h => if_neg h, fun h => by simp only [if_pos h]⟩⟩
    rw [State.addMiss_counts hr (by omega)]
    exact congrArg LaneCtl.parcels (Two.get_set_self s.lanes l _)

end Sys2Proof.Machine
end

section
/-! SUPPORT. What a plan that ends by a miss leaves, and the lane's later plan (R98, R133, R135). -/

namespace Sys2Proof.Machine

/-! ### The slot freed, the RELEASE placed or the CLAIM withdrawn -/

/-- What the ending of a plan does before the miss is counted. -/
def State.freed (s : State) (l : Lane) (sl : Slot) (p : Plan) : State :=
  if p.state = .tentative then (s.unplan l sl p).withdrawClaim { lane := l, tag := p.tag }
  else work 15 (.place (plainEntry .release p.target p.span)) (s.unplan l sl p)

theorem work_place_keeps {n : Nat} {k : Nat} {sp : Span} {s : State} (hq : s.txq.length < 8) :
    work n (.place (plainEntry .release k sp)) s = { s with
        txq := (work n (.place (plainEntry .release k sp)) s).txq
        line := (work n (.place (plainEntry .release k sp)) s).line } ∧
      (work n (.place (plainEntry .release k sp)) s).txq.length ≤ s.txq.length + 1 := by
  cases n with
  | zero => rw [work]; exact ⟨rfl, Nat.le_succ _⟩
  | succ n =>
    by_cases he : s.line.enabled = true
    · by_cases ht : s.hasTwin (plainEntry .release k sp) = true
      · rw [work, if_neg (by simp [he]), if_pos ht]
        exact ⟨rfl, Nat.le_succ _⟩
      · rw [work_place_of_room he (by simpa using ht) hq, State.appendEntry_eq]
        exact ⟨rfl, (List.length_append ..).le⟩
    · rw [work, if_pos (by simpa using he)]
      exact ⟨rfl, Nat.le_succ _⟩

/-- With room, only the queue and the line's counts of its head move. -/
theorem State.freed_eq {s : State} {l : Lane} {sl : Slot} {p : Plan} (hq : s.txq.length < 8) :
    s.freed l sl p = { s.unplan l sl p with txq := (s.freed l sl p).txq, line := (s.freed l sl p).line } ∧
      (s.freed l sl p).txq.length ≤ s.txq.length + 1 := by
  have h := (s.unplan_txq l sl p).1
  unfold State.freed
  split
  · have hl := (s.unplan l sl p).withdrawClaim_length { lane := l, tag := p.tag }
    rw [h] at hl
    exact ⟨by rw [State.withdrawClaim_eq], hl.trans (Nat.le_succ _)⟩
  · obtain ⟨h1, h2⟩ := work_place_keeps (n := 15) (k := p.target) (sp := p.span) (s := s.unplan l sl p) (by rw [h]; exact hq)
    rw [h] at h2
    exact ⟨h1, h2⟩

theorem State.freed_lane {s : State} {l : Lane} {sl : Slot} {p : Plan} (hq : s.txq.length < 8) :
    (s.freed l sl p).lane l = (s.lane l).modParcel p.tag fun r => { r with planSlot := none } := by
  have h : (s.freed l sl p).lanes = (s.unplan l sl p).lanes := (congrArg State.lanes (State.freed_eq hq).1 :)
  rw [State.lane, h, State.unplan_eq]
  exact Two.get_set_self ..

theorem State.freed_plan_other {s : State} {l : Lane} {sl : Slot} {p : Plan} (hq : s.txq.length < 8) :
    (s.freed l sl p).plan l (otherSlot sl) = s.plan l (otherSlot sl) := by
  have h : (s.freed l sl p).plans = (s.unplan l sl p).plans := (congrArg State.plans (State.freed_eq hq).1 :)
  exact (congrArg (Four.get · l (otherSlot sl)) h).trans (s.unplan_plan_other l sl p)

theorem State.freed_rep {s : State} {l : Lane} {sl : Slot} {p : Plan} (hq : s.txq.length < 8) :
    (s.freed l sl p).rep = s.rep :=
  ((congrArg State.rep (State.freed_eq hq).1 :) : _ = (s.unplan l sl p).rep).trans (s.unplan_txq l sl p).2.2

/-! ### The miss and the later plan -/

/-- The state once the miss is counted. -/
def State.missCounted (s : State) (l : Lane) (sl : Slot) (p : Plan) : State := (s.freed l sl p).addMiss l p.tag

theorem State.endPlan_miss_eq {s : State} {l : Lane} {sl : Slot} {p : Plan} (hp : s.plan l sl = some p) :
    s.endPlan .miss l sl = match (s.missCounted l sl p).laterSlot? l sl p.tag with
      | some sl' => work 15 (.ending .withdraw l sl') (s.missCounted l sl p)
      | none => s.missCounted l sl p := by
  rw [State.endPlan, workFuel, work]
  simp only [hp]
  rfl

theorem State.endPlan_miss_rel {s : State} {l : Lane} {sl : Slot} {p : Plan} (hp : s.plan l sl = some p)
    {A : PlanEnding → Prop} {R : State → State → Prop} (h : WorkRel A R) :
    R (s.missCounted l sl p) (s.endPlan .miss l sl) := by
  rw [State.endPlan_miss_eq hp]
  split
  · exact h.work _ _ _ fun _ _ _ e => by cases e; exact h.withdraw
  · exact h.refl _

section
variable {s : State} {l : Lane} {sl : Slot} {p : Plan} {r : Parcel}

theorem State.freed_parcel? (hq : s.txq.length < 8) (hr : (s.lane l).parcel? p.tag = some r) :
    ((s.freed l sl p).lane l).parcel? p.tag = some { r with planSlot := none } := by
  rw [State.freed_lane hq]
  exact LaneCtl.parcel?_modParcel hr fun _ => rfl

theorem State.missCounted_same (s : State) (l : Lane) (sl : Slot) (p : Plan) :
    (s.missCounted l sl p).plans = (s.freed l sl p).plans ∧ (s.missCounted l sl p).txq = (s.freed l sl p).txq := by
  unfold State.missCounted
  rw [State.addMiss_eq]
  exact ⟨rfl, rfl⟩

/-- The records after the miss: in place, the plan's without their slot and one miss more. -/
theorem State.missCounted_parcels (hq : s.txq.length < 8) (hr : (s.lane l).parcel? p.tag = some r)
    (hst : (s.lane l).state ≠ .stopped) :
    ∃ f : Parcel → Parcel, ((s.missCounted l sl p).lane l).parcels = (s.lane l).parcels.map f ∧
      ∀ q, (q.tag ≠ p.tag → f q = q) ∧
        (q.tag = p.tag → f q = { q with planSlot := none, misses := q.misses + 1, named := (f q).named }) := by
  obtain ⟨f, hf, hm⟩ := State.addMiss_parcels (State.freed_parcel? (sl := sl) hq hr)
    (by rw [State.freed_lane hq]; exact hst)
  refine ⟨fun q => f (if q.tag = p.tag then { q with planSlot := none } else q), ?_, fun q => ⟨fun h => ?_, fun h => ?_⟩⟩
  · rw [State.missCounted, hf, State.freed_lane hq, LaneCtl.modParcel, List.map_map]
    rfl
  · dsimp only
    rw [if_neg h]
    exact (hm q).other h
  · dsimp only
    rw [if_pos h]
    exact (hm { q with planSlot := none }).self h

theorem State.missCounted_tags (hq : s.txq.length < 8) (hr : (s.lane l).parcel? p.tag = some r)
    (hst : (s.lane l).state ≠ .stopped) :
    ((s.missCounted l sl p).lane l).parcels.map Parcel.tag = (s.lane l).parcels.map Parcel.tag := by
  obtain ⟨f, hf, hm⟩ := State.missCounted_parcels (sl := sl) hq hr hst
  rw [hf, List.map_map]
  refine List.map_congr_left fun q _ => ?_
  by_cases h : q.tag = p.tag
  · exact (congrArg Parcel.tag ((hm q).2 h) :)
  · exact (congrArg Parcel.tag ((hm q).1 h) :)

/-- R135: the lane's other plan, where its parcel is the later one. -/
theorem State.missCounted_laterSlot (hq : s.txq.length < 8) (hr : (s.lane l).parcel? p.tag = some r)
    (hst : (s.lane l).state ≠ .stopped) :
    (s.missCounted l sl p).laterSlot? l sl p.tag = s.laterSlot? l sl p.tag := by
  have hplan : (s.missCounted l sl p).plan l (otherSlot sl) = s.plan l (otherSlot sl) :=
    (congrArg (Four.get · l (otherSlot sl)) (s.missCounted_same l sl p).1).trans (State.freed_plan_other hq)
  unfold State.laterSlot?
  rw [hplan]
  cases s.plan l (otherSlot sl) with
  | none => rfl
  | some q =>
    dsimp only
    rw [LaneCtl.rank_of_tags (State.missCounted_tags hq hr hst), LaneCtl.rank_of_tags (State.missCounted_tags hq hr hst)]

theorem State.endPlan_miss_last (hp : s.plan l sl = some p) (hq : s.txq.length < 8)
    (hr : (s.lane l).parcel? p.tag = some r) (hst : (s.lane l).state ≠ .stopped)
    (hl : s.laterSlot? l sl p.tag = none) : s.endPlan .miss l sl = s.missCounted l sl p := by
  rw [State.endPlan_miss_eq hp, State.missCounted_laterSlot hq hr hst, hl]

theorem State.endPlan_miss_later {sl' : Slot} (hp : s.plan l sl = some p) (hq : s.txq.length < 8)
    (hr : (s.lane l).parcel? p.tag = some r) (hst : (s.lane l).state ≠ .stopped)
    (hl : s.laterSlot? l sl p.tag = some sl') :
    s.endPlan .miss l sl = work 15 (.ending .withdraw l sl') (s.missCounted l sl p) := by
  rw [State.endPlan_miss_eq hp, State.missCounted_laterSlot hq hr hst, hl]

/-- R98, R133: the plan's record counts one miss more and holds no slot; the others keep their counts. -/
theorem State.endPlan_miss_parcels (hp : s.plan l sl = some p) (hq : s.txq.length < 8)
    (hr : (s.lane l).parcel? p.tag = some r) (hst : (s.lane l).state ≠ .stopped) :
    ∃ f : Parcel → Parcel, ((s.endPlan .miss l sl).lane l).parcels = (s.lane l).parcels.map f ∧
      ∀ q, (f q).tag = q.tag ∧ (q.tag ≠ p.tag → (f q).misses = q.misses) ∧
        (q.tag = p.tag → (f q).misses = q.misses + 1 ∧ (f q).planSlot = none) := by
  obtain ⟨f, hf, hm⟩ := State.missCounted_parcels (sl := sl) hq hr hst
  obtain ⟨g, hg, hgm⟩ := State.endPlan_miss_rel hp laneUnplanned_workRel l
  refine ⟨g ∘ f, ?_, fun q => ?_⟩
  · rw [hg]
    exact (congrArg (List.map g) hf).trans (List.map_map ..)
  · obtain ⟨h1, h2⟩ := hm q
    have hk : (g (f q)).tag = (f q).tag ∧ (g (f q)).misses = (f q).misses ∧
        ((f q).planSlot = none → (g (f q)).planSlot = none) := by
      rcases hgm (f q) with e | e <;> rw [e] <;> exact ⟨rfl, rfl, by simp⟩
    refine ⟨hk.1.trans ?_, fun h => hk.2.1.trans (by rw [h1 h]), fun h => ?_⟩
    · by_cases h : q.tag = p.tag
      · exact (congrArg Parcel.tag (h2 h) :)
      · exact (congrArg Parcel.tag (h1 h) :)
    · exact ⟨hk.2.1.trans (congrArg Parcel.misses (h2 h) :), hk.2.2 (congrArg Parcel.planSlot (h2 h) :)⟩

theorem State.endPlan_miss_trig (hp : s.plan l sl = some p) : (s.endPlan .miss l sl).trig.get l sl = none :=
  (State.endPlan_from_unplan hp).trig_none (s.unplan_plan l sl p).2.1

end

end Sys2Proof.Machine
end

section
/-! PROOF. A trigger reached that finds its plan or its parcel not ready ends the plan by a miss (R11, R98,
R130, R133, R135). -/

open Sys2Proof Sys2Proof.Machine

namespace Sys2Proof.Machine

theorem Slot.eq_otherSlot {k sl : Slot} (h : k ≠ sl) : k = otherSlot sl := by
  cases k <;> cases sl <;> simp_all [otherSlot]

/-! ### Records that a block names stay where they are -/

/-- A transfer that begins moves no record of a tag all of whose records are named (R91). -/
theorem State.startTransfer_mem_named {s : State} {l m : Lane} {q : Parcel} (hm : q ∈ (s.lane l).parcels)
    (hn : ∀ p ∈ (s.lane l).parcels, p.tag = q.tag → p.named.isSome = true) :
    q ∈ ((s.startTransfer m).lane l).parcels ∧
      ∀ p ∈ ((s.startTransfer m).lane l).parcels, p.tag = q.tag → p.named.isSome = true := by
  unfold State.startTransfer
  split
  · rename_i r hr
    by_cases e : l = m
    · subst e
      have hr' : r ∈ (s.lane l).parcels ∧ r.named.isNone = true := by
        unfold State.transferReady? at hr
        dsimp only at hr
        split at hr
        · have := List.find?_some hr
          simp only [Bool.and_eq_true] at this
          exact ⟨List.mem_of_find?_eq_some hr, this.2⟩
        · cases hr
      have hne : r.tag ≠ q.tag := fun ht => by
        have := hn r hr'.1 ht
        simp [Option.isNone_iff_eq_none.1 hr'.2] at this
      rw [State.modLane_lane_self]
      refine ⟨List.mem_map.2 ⟨q, hm, if_neg (Ne.symm hne)⟩, fun p hp ht => ?_⟩
      obtain ⟨p', hp', rfl⟩ := List.mem_map.1 hp
      by_cases h : p'.tag = r.tag
      · rw [if_pos h] at ht
        exact absurd (h.symm.trans ht) hne
      · rw [if_neg h] at ht ⊢
        exact hn p' hp' ht
    · rw [State.modLane_lane_ne _ _ e]
      exact ⟨hm, hn⟩
  · exact ⟨hm, hn⟩

theorem State.settle_mem_named {s before : State} {planning test : Bool} (hp : s.PlansNothing before planning)
    (hq : s.LeavesNothing before test) {l : Lane} {q : Parcel} (hm : q ∈ (s.lane l).parcels)
    (hn : ∀ p ∈ (s.lane l).parcels, p.tag = q.tag → p.named.isSome = true) :
    q ∈ ((s.settle before planning test).lane l).parcels := by
  rw [State.settle_lane_eq hp hq, State.updateFeeds_lane]
  obtain ⟨h1, h2⟩ := State.startTransfer_mem_named (m := .l0) hm hn
  exact (State.startTransfer_mem_named (m := .l1) h1 h2).1

/-! ### The trigger that misses -/

theorem State.trayEventsAt_congr {s t : State} (h : t.table = s.table) (p : Nat) :
    t.trayEventsAt p = s.trayEventsAt p := by
  have e : ∀ k : State, ({ k with table := s.table } : State).trayEventsAt p = s.trayEventsAt p := fun _ => rfl
  have := e t
  rw [← h] at this
  exact this

theorem State.namedTrays_congr {s t : State} (h : t.table = s.table) (k : Nat) (sp : Span) :
    t.namedTrays k sp = s.namedTrays k sp := by
  have e : ∀ u : State, ({ u with table := s.table } : State).namedTrays k sp = s.namedTrays k sp := fun _ => rfl
  have := e t
  rw [← h] at this
  exact this

theorem State.takeTrigger_misses {s : State} {l : Lane} {sl : Slot} {p : Plan} {r : Parcel}
    (hp : s.plan l sl = some p) (hr : (s.lane l).bySlot? sl = some r)
    (h : p.state = .tentative ∨ (p.state = .claimed ∧ r.place ≠ .ready)) :
    s.takeTrigger l sl = (s.setTrig (s.trig.set l sl none)).endPlan .miss l sl := by
  have hp' : (s.setTrig (s.trig.set l sl none)).plan l sl = some p := hp
  unfold State.takeTrigger
  dsimp only
  rw [hp']
  dsimp only
  rcases h with h | ⟨h, hpl⟩
  · rw [h]
  · have hs : (s.setTrig (s.trig.set l sl none)).slotReady l sl = false := by
      have hr' : ((s.setTrig (s.trig.set l sl none)).lane l).bySlot? sl = some r := hr
      simp only [State.slotReady]
      rw [hr']
      exact beq_eq_false_iff_ne.2 hpl
    rw [h, hs]
    rfl

/-- The lane's other plan, where it is not the later one or there is none. -/
theorem State.laterSlot?_of_none {s : State} {l : Lane} {sl : Slot} {g : Tag} (h : s.plan l (otherSlot sl) = none) :
    s.laterSlot? l sl g = none := by
  simp only [State.laterSlot?, h]

theorem State.laterSlot?_of_some {s : State} {l : Lane} {sl : Slot} {g : Tag} {q : Plan}
    (h : s.plan l (otherSlot sl) = some q) :
    s.laterSlot? l sl g = if (s.lane l).rank g < (s.lane l).rank q.tag then some (otherSlot sl) else none := by
  simp only [State.laterSlot?, h]

/-- R56, R133: with room, a CLAIMED plan's RELEASE joins the queue. -/
theorem State.freed_released {s : State} {l : Lane} {sl : Slot} {p : Plan} (ht : p.state ≠ .tentative)
    (he : s.line.enabled = true) (hw : s.hasTwin (plainEntry .release p.target p.span) = false)
    (hq : s.txq.length < 8) : (s.freed l sl p).txq = s.txq ++ [plainEntry .release p.target p.span] := by
  obtain ⟨h1, h2, -⟩ := s.unplan_txq l sl p
  have e := work_place_of_room (n := 14) (e := plainEntry .release p.target p.span) (s := s.unplan l sl p)
    (by rw [h2]; exact he) (by rw [State.hasTwin_congr h1]; exact hw) (by rw [h1]; exact hq)
  rw [State.freed, if_neg ht, e, State.appendEntry_eq, h1]

/-- R56: a TENTATIVE plan's CLAIM leaves the queue. -/
theorem State.freed_claim {s : State} {l : Lane} {sl : Slot} {p : Plan} {older younger : List TxEntry} {e : TxEntry}
    (ht : p.state = .tentative) (hs : s.txq = older ++ e :: younger) (hk : e.kind.isClaim = true)
    (hp : e.plan = some { lane := l, tag := p.tag }) (hw : e.phase = .waiting) (he : e.ended = false)
    (ho : ∀ q ∈ older, q.plan ≠ some { lane := l, tag := p.tag }) :
    (s.freed l sl p).txq = older ++ younger := by
  rw [State.freed, if_pos ht]
  exact State.withdrawClaim_txq ((s.unplan_txq l sl p).1.trans hs) hk hp hw he ho

section
variable {s : State} {l : Lane} {sl : Slot} {p : Plan} {r : Parcel}

/-- R98: short of the fourth miss the lane keeps its state and nothing is reported. -/
theorem State.missCounted_unblocked (hq : s.txq.length < 8) (hr : (s.lane l).parcel? p.tag = some r)
    (hm : r.misses + 1 < 4) : ((s.missCounted l sl p).lane l).state = (s.lane l).state ∧
      (s.missCounted l sl p).rep = s.rep := by
  have hlane := State.freed_lane (l := l) (sl := sl) (p := p) hq
  rw [State.missCounted, State.addMiss_counts (State.freed_parcel? hq hr) hm, hlane]
  refine ⟨?_, State.freed_rep hq⟩
  simp only [State.lane, Two.get_set_self]
  rfl

/-- R98, R99: the fourth miss makes the parcel unplaceable and blocks the lane, which is reported. -/
theorem State.missCounted_blocked (hq : s.txq.length < 8) (hr : (s.lane l).parcel? p.tag = some r)
    (hm : r.misses = 3) (hn : r.named = none) (hst : (s.lane l).state = .running ∨ (s.lane l).state = .paused) :
    let c := (s.missCounted l sl p).lane l
    (c.state = .blocked ∧ c.reason = .unplaceable ∧ c.removal = true) ∧
      (∃ q ∈ c.parcels, q.tag = p.tag ∧ q.named = some .unplaceable ∧ q.place = r.place) ∧
      (∀ q ∈ c.parcels, q.tag = p.tag → q.named.isSome = true) ∧
      (s.missCounted l sl p).rep = ((s.queueReport (.rejected l p.tag .unplaceable)).queueReport
        (.lane l .blocked .unplaceable)).rep := by
  have hlane := State.freed_lane (l := l) (sl := sl) (p := p) hq
  have hrep := State.freed_rep (l := l) (sl := sl) (p := p) hq
  have hpar := State.freed_parcel? (sl := sl) hq hr
  have hst' : ((s.freed l sl p).lane l).state = .running ∨ ((s.freed l sl p).lane l).state = .paused := by
    rw [hlane]
    exact hst
  unfold State.missCounted
  generalize s.freed l sl p = v at hlane hrep hpar hst'
  have hv : ({ v with lanes := v.lanes.set l ((v.lane l).missed p.tag) } : State).lane l = (v.lane l).missed p.tag :=
    Two.get_set_self ..
  have hvr : ({ v with lanes := v.lanes.set l ((v.lane l).missed p.tag) } : State).rep = s.rep := hrep
  rw [State.addMiss_blocks hpar (by exact hm.symm ▸ le_rfl)]
  generalize ({ v with lanes := v.lanes.set l ((v.lane l).missed p.tag) } : State) = w at hv hvr
  have hw : (w.lane l).state = .running ∨ (w.lane l).state = .paused := by
    rw [hv]
    exact hst'
  rw [State.takeBlock_running w l _ _ _ hw]
  have hc : ({ w with
      lanes := w.lanes.set l { (w.lane l).name .unplaceable [p.tag] with
        state := .blocked, reason := BlockReason.unplaceable.toLane, removal := true }
      rep := w.blockReports l .unplaceable [p.tag] } : State).lane l = { (w.lane l).name .unplaceable [p.tag] with
        state := .blocked, reason := BlockReason.unplaceable.toLane, removal := true } := Two.get_set_self ..
  intro c
  have hc' : c = { (w.lane l).name .unplaceable [p.tag] with
        state := .blocked, reason := BlockReason.unplaceable.toLane, removal := true } := hc
  have hps : c.parcels = (w.lane l).parcels.map fun q =>
      if [p.tag].contains q.tag && q.named.isNone then { q with named := some .unplaceable } else q := by
    rw [hc']
    rfl
  refine ⟨by rw [hc']; exact ⟨rfl, rfl, rfl⟩, ?_, fun q hqm ht => ?_, ?_⟩
  · have hmem : { r with planSlot := none, misses := r.misses + 1 } ∈ (w.lane l).parcels := by
      rw [hv]
      have hin := List.mem_of_find?_eq_some hpar
      have ht : ({ r with planSlot := none } : Parcel).tag = p.tag := by simpa using List.find?_some hpar
      exact List.mem_map.2 ⟨_, hin, if_pos ht⟩
    have htag : r.tag = p.tag := by simpa using List.find?_some hr
    refine ⟨{ r with planSlot := none, misses := r.misses + 1, named := some .unplaceable }, ?_, htag, rfl, rfl⟩
    rw [hps]
    exact List.mem_map.2 ⟨_, hmem, if_pos (by simp [htag, hn])⟩
  · rw [hps] at hqm
    obtain ⟨q', -, rfl⟩ := List.mem_map.1 hqm
    by_cases hq' : ([p.tag].contains q'.tag && q'.named.isNone) = true
    · rw [if_pos hq']
      rfl
    · rw [if_neg hq'] at ht ⊢
      cases hqn : q'.named with
      | none => exact absurd (by simp [ht, hqn]) hq'
      | some _ => rfl
  · refine State.queueReport_rep_congr ?_ _
    exact State.queueReport_rep_congr hvr _

end

theorem work_ending_plan {n : Nat} {s : State} {e : PlanEnding} {l : Lane} {sl : Slot} :
    (work (n + 1) (.ending e l sl) s).plan l sl = none := by
  cases hp : s.plan l sl with
  | none => exact (planEnds_workRel.work (n + 1) (.ending e l sl) s fun _ _ _ _ => trivial).plan_none hp
  | some p => exact (work_ending_from_unplan hp planEnds_workRel trivial).plan_none (s.unplan_plan l sl p).1

/-- A newly reached position whose one trigger ends its plan by a miss, where nothing is planned anew. -/
theorem exec_misses {s : State} {l : Lane} {sl : Slot} {p : Plan} {r : Parcel} {chk lvl : Bool}
    (h : s.ReachesNext) (htr : s.triggersAt s.nextS = [(l, sl)]) (he : s.trayEventsAt s.nextS = [])
    (ho : s.table.station = .online) (hmp : s.mayPlan = false) (haim : s.aims.get l (otherSlot sl) ≠ some s.nextS)
    (hp : s.plan l sl = some p) (hr : (s.lane l).bySlot? sl = some r)
    (hc : p.state = .tentative ∨ (p.state = .claimed ∧ r.place ≠ .ready)) :
    ∃ a : State, (a.plans = s.plans ∧ a.lanes = s.lanes ∧ a.trays = s.trays ∧ a.txq = s.txq ∧ a.line = s.line ∧
        a.rep = s.rep ∧ a.table = s.table) ∧
      ∃ x : State, (x.lanes = (a.endPlan .miss l sl).lanes ∧ x.trig = (a.endPlan .miss l sl).trig ∧
        x.trays = (a.endPlan .miss l sl).trays ∧ x.txq = (a.endPlan .miss l sl).txq ∧
        x.rep = (a.endPlan .miss l sl).rep ∧ ∀ k, x.plan l k = (a.endPlan .miss l sl).plan l k) ∧
      x.PlansNothing s false ∧ x.LeavesNothing s false ∧
      exec (.encoderCount true chk lvl) s = .next (x.settle s false false) := by
  obtain ⟨a, ha⟩ : ∃ a, a = (s.advanced chk lvl).setTrig ((s.advanced chk lvl).trig.set l sl none) := ⟨_, rfl⟩
  refine ⟨a, by rw [ha]; exact ⟨rfl, rfl, rfl, rfl, rfl, rfl, rfl⟩, ?_⟩
  have hat : (s.advanced chk lvl).takeTriggersAt s.nextS = a.endPlan .miss l sl := by
    rw [State.takeTriggersAt_one (s := s.advanced chk lvl) htr, ha]
    exact State.takeTrigger_misses (s := s.advanced chk lvl) hp hr hc
  have hw := a.endPlan_planWork .miss l sl
  have hn := a.endPlan_plan .miss l sl
  have hpe : PlanEnds a (a.endPlan .miss l sl) := planEnds_workRel.endPlan a trivial l sl
  generalize a.endPlan .miss l sl = u at hat hw hn hpe
  have htab : u.table = s.table := hw.table.trans (by rw [ha]; rfl)
  have hev : u.trayEventsAt s.nextS = [] := (State.trayEventsAt_congr htab _).trans he
  have hca : s.countArrives true = false := State.countArrives_of_no_arrival (by rw [he]; simp) true
  have hx := exec_reachesNext h chk lvl
  rw [State.newlyReached, hat, State.trayEvents_nil ((u.reachAimsAt_trayEventsAt _).trans hev), hca] at hx
  have hf := u.reachAimsAt_eq s.nextS
  have hplan : ∀ k, (u.reachAimsAt s.nextS).plan l k = u.plan l k := fun k => by
    rw [State.reachAimsAt_plan]
    by_cases hk : k = sl
    · rw [hk, hn]
      split <;> rfl
    · have hk' : k = otherSlot sl := Slot.eq_otherSlot hk
      rw [if_neg]
      rcases hpe.aims l k with e | e
      · rw [e, hk', ha]
        exact haim
      · rw [e]
        nofun
  generalize u.reachAimsAt s.nextS = w at hx hf hplan
  have hloop : w.countDoubt.loop = (s.advanced chk lvl).loop := by
    have : w.loop = u.loop := by rw [hf]
    exact this.trans (hw.loop.trans (by rw [ha]; rfl))
  have htab' : w.countDoubt.table = s.table := by
    have : w.table = u.table := by rw [hf]
    exact this.trans htab
  have hm : w.countDoubt.mayPlan = false :=
    (State.mayPlan_congr (s := s.advanced chk lvl) hloop htab').trans hmp
  refine ⟨w.countDoubt, ⟨?_, ?_, ?_, ?_, ?_, hplan⟩, .inr (.inl hm),
    State.leavesNothing_of_not_leaving (by rw [htab', ho]; nofun) s false, hx⟩
  · show w.lanes = _; rw [hf]
  · show w.trig = _; rw [hf]
  · show w.trays = _; rw [hf]
  · show w.txq = _; rw [hf]
  · show w.rep = _; rw [hf]

/-- Settles O22: the ending by a miss of the plan whose trigger is reached, with room in the queue. -/
theorem missedTriggerEndsPlan : Obligations.MissedTriggerEndsPlan := by
  unfold Obligations.MissedTriggerEndsPlan
  intro s l sl p r chk lvl hn htr he ho hmp hen hq haim hp hby hpar hst hc ref alone
  obtain ⟨a, ⟨hap, hal, hat, haq, hali, har, hatab⟩, x, ⟨xl, xt, xr, xq, xrep, xp⟩, hpn, hln, hx⟩ :=
    exec_misses (chk := chk) (lvl := lvl) (s.reachesNext_iff.1 hn) htr he ho hmp haim hp hby hc
  have e := State.settle_end hpn hln
  have hmem := fun q => State.settle_mem_named hpn hln (l := l) (q := q)
  refine ⟨_, hx, ?_⟩
  generalize x.settle s false false = t at e hmem
  have hq8 : a.txq.length < 8 := by rw [haq]; omega
  have hpa : a.plan l sl = some p := (congrArg (Four.get · l sl) hap).trans hp
  have hla : a.lane l = s.lane l := congrArg (Two.get · l) hal
  have hra : (a.lane l).parcel? p.tag = some r := hla ▸ hpar
  have hsa : (a.lane l).state ≠ .stopped := hla ▸ hst
  have htag : r.tag = p.tag := by simpa using List.find?_some hpar
  have hxl : x.lane l = (a.endPlan .miss l sl).lane l := congrArg (Two.get · l) xl
  have hnamed : ∀ j ∈ s.namedTrays p.target p.span, j ∈ a.namedTrays p.target p.span := fun j hj => by
    rw [State.namedTrays_congr hatab]
    exact hj
  have hother : a.plan l (otherSlot sl) = s.plan l (otherSlot sl) := congrArg (Four.get · l (otherSlot sl)) hap
  obtain ⟨f, hf, hfm⟩ := State.endPlan_miss_parcels hpa hq8 hra hsa
  obtain ⟨g, hg, hgm⟩ := (e.lanes l).parcels
  have hgk : ∀ q, (g q).tag = q.tag ∧ (g q).misses = q.misses ∧ (g q).planSlot = q.planSlot := fun q => by
    rcases hgm q with h | h <;> rw [h] <;> exact ⟨rfl, rfl, rfl⟩
  rw [hxl, hf, List.map_map, hla] at hg
  have hone : alone → a.endPlan .miss l sl = a.missCounted l sl p := fun h =>
    State.endPlan_miss_last hpa hq8 hra hsa (State.laterSlot?_of_none (hother.trans h))
  refine ⟨(e.plan l sl).trans ((xp sl).trans (a.endPlan_plan .miss l sl)),
    (congrArg (Four.get · l sl) (e.trig.trans xt)).trans (State.endPlan_miss_trig hpa), ?_, ?_, ?_, ?_, ?_, ?_, ?_⟩
  · obtain ⟨h1, -, h3⟩ := hfm r
    obtain ⟨k1, k2, k3⟩ := hgk (f r)
    refine ⟨g (f r), ?_, k1.trans h1, k2.trans (h3 htag).1, k3.trans (h3 htag).2⟩
    rw [hg]
    exact List.mem_map_of_mem (List.mem_of_find?_eq_some hpar)
  · intro j hj q hqj hown hqp
    have hqa : a.tray? j = some q := (congrArg (·[j]?) hat).trans hqj
    have hja : j ∈ a.namedTrays p.target p.span := hnamed j hj
    exact (e.tray j).trans ((congrArg (·[j]?) xr).trans (State.endPlan_record hpa hja hqa hown hqp))
  · intro h hcl htwin
    rw [e.txq, xq, hone h, (a.missCounted_same l sl p).2, ← haq]
    exact State.freed_released (by rw [hcl]; nofun) (hali ▸ hen) ((State.hasTwin_congr haq _).trans htwin) hq8
  · intro older e' younger h hten hs hk hep hw hee hold
    rw [e.txq, xq, hone h, (a.missCounted_same l sl p).2]
    exact State.freed_claim hten (haq.trans hs) hk hep hw hee hold
  · intro h hm
    obtain ⟨h1, h2⟩ := State.missCounted_unblocked (sl := sl) hq8 hra hm
    rw [hone h] at hxl xrep
    refine ⟨(e.lanes l).state.trans ?_, e.rep.trans (xrep.trans (h2.trans har))⟩
    rw [hxl, h1, hla]
  · intro h hm hnm hrun
    obtain ⟨⟨h1, h2, h3⟩, ⟨q, hqm, hqt, hqn, hqp⟩, h4, h5⟩ :=
      State.missCounted_blocked (sl := sl) hq8 hra hm hnm (hla ▸ hrun)
    rw [hone h] at hxl xrep
    rw [← hxl] at h1 h2 h3 h4 hqm
    refine ⟨(e.lanes l).state.trans h1, (e.lanes l).reason.trans h2, (e.lanes l).removal.trans h3,
      ⟨q, hmem q hqm fun q' hq' ht => h4 q' hq' (ht.trans hqt), hqt.trans htag.symm, hqn, hqp⟩,
      e.rep.trans (xrep.trans (h5.trans ?_))⟩
    rw [htag]
    exact State.queueReport_rep_congr (State.queueReport_rep_congr har _) _
  · intro q hqo hqt
    have hoa : a.plan l (otherSlot sl) = some q := hother.trans hqo
    have hlater := State.laterSlot?_of_some (g := p.tag) hoa
    rw [hla] at hlater
    refine ⟨fun hlt => ⟨?_, fun m u hm hu => ?_⟩, fun hlt => ?_⟩
    · rw [if_pos hlt] at hlater
      rw [e.plan, xp, State.endPlan_miss_later hpa hq8 hra hsa hlater]
      exact work_ending_plan
    · rw [hg, List.getElem?_map, hm]
      obtain ⟨-, h2, -⟩ := hfm u
      exact congrArg some ((hgk (f u)).2.1.trans (h2 (by rw [hu]; exact hqt)))
    · rw [if_neg hlt] at hlater
      rw [e.plan, xp, State.endPlan_miss_last hpa hq8 hra hsa hlater]
      exact (congrArg (Four.get · l (otherSlot sl)) (a.missCounted_same l sl p).1).trans
        ((State.freed_plan_other hq8).trans hoa)

end Sys2Proof.Machine
end

section
/-! SUPPORT. A window end on which no plan is retimed: the Launch Planner tests the suspensions, the Pace Generator
takes the window, and nothing else follows (R120, R132, R138). -/

open Sys2Proof Sys2Proof.Machine

namespace Sys2Proof.Machine

/-! ### The Planner's part -/

/-- The suspensions after the tests of a window end (R120). -/
def State.testedPlanner (s : State) : Planner := (s.testSuspension .l0 |>.testSuspension .l1).planner

theorem State.testSuspension_eq (s : State) (l : Lane) :
    s.testSuspension l = { s with planner := (s.testSuspension l).planner } := by
  unfold State.testSuspension
  split <;> rfl

theorem State.testSuspensions_eq (s : State) :
    (s.testSuspension .l0).testSuspension .l1 = { s with planner := s.testedPlanner } := by
  unfold State.testedPlanner
  rw [State.testSuspension_eq (s.testSuspension .l0), State.testSuspension_eq s .l0]

/-- R120: a suspension is cleared where every lead leaves room for an aim. -/
theorem State.testSuspension_get (s : State) (l m : Lane) :
    (s.testSuspension l).planner.suspended.get m = true ↔ s.planner.suspended.get m = true ∧
      (m = l → ∃ r ∈ s.offered l, s.cfgH < s.leadOf l r + s.cfgG) := by
  have hall : ((s.offered l).all fun r => !s.outOfRange (s.leadOf l r)) = true ↔
      ¬ ∃ r ∈ s.offered l, s.cfgH < s.leadOf l r + s.cfgG := by
    simp [State.outOfRange]
  unfold State.testSuspension
  split
  · rename_i h
    rw [Bool.and_eq_true, hall] at h
    by_cases hm : m = l
    · subst hm
      refine iff_of_false ?_ fun hc => h.2 (hc.2 rfl)
      simp [State.modPlanner]
    · have : (s.planner.suspended.set l false).get m = s.planner.suspended.get m := Two.get_set_ne _ _ hm
      simp [State.modPlanner, this, hm]
  · rename_i h
    rw [Bool.and_eq_true, hall, not_and, not_not] at h
    exact ⟨fun hs => ⟨hs, fun hm => h (hm ▸ hs)⟩, And.left⟩

theorem State.testedPlanner_get (s : State) (l : Lane) :
    s.testedPlanner.suspended.get l = true ↔ s.planner.suspended.get l = true ∧
      ∃ r ∈ s.offered l, s.cfgH < s.leadOf l r + s.cfgG := by
  unfold State.testedPlanner
  rw [State.testSuspension_get, State.testSuspension_get]
  have e := s.testSuspension_eq .l0
  have ho : (s.testSuspension .l0).offered .l1 = s.offered .l1 := by rw [e]; rfl
  have hl : ∀ r, (s.testSuspension .l0).leadOf .l1 r = s.leadOf .l1 r := fun r => by rw [e]; rfl
  have hH : (s.testSuspension .l0).cfgH = s.cfgH := by rw [e]; rfl
  have hG : (s.testSuspension .l0).cfgG = s.cfgG := by rw [e]; rfl
  rw [ho, hH, hG]
  simp only [hl]
  cases l <;> simp

/-- No plan of the state waits for its launch. -/
def State.AllLaunched (s : State) : Prop := ∀ l sl p, s.plan l sl = some p → p.state = .launched

theorem State.lanesToRetime_nil {s : State} (h : s.AllLaunched) : s.lanesToRetime = [] := by
  have hn : ∀ l, s.hasUnlaunched l = false := fun l => by
    have hs : ∀ sl, (match s.plan l sl with | some p => p.state != .launched | none => false) = false := fun sl => by
      cases hp : s.plan l sl with
      | none => rfl
      | some p => simp [h l sl p hp]
    simp only [State.hasUnlaunched, List.any_cons, List.any_nil, Bool.or_false, Bool.or_eq_false_iff]
    exact ⟨hs .s0, hs .s1⟩
  simp [State.lanesToRetime, hn]

theorem State.plannerWindow_idle {s : State} (h : s.AllLaunched) :
    s.plannerWindow = { s with planner := s.testedPlanner } := by
  have hr := State.lanesToRetime_nil h
  have hlen : s.lanesToRetime.length ≤ 1 := by simp [hr]
  unfold State.plannerWindow
  rw [State.freeOrder_of_short s hlen, State.afterOrder_of_short s hlen, hr, List.foldl_nil]
  dsimp only
  rw [State.testSuspensions_eq, planEnded_of_plans_eq (s := s) (t := { s with planner := s.testedPlanner }) rfl]
  rfl

/-! ### Both blocks -/

/-- The two blocks at a window end where no plan is retimed: each reads nothing that the other moves. -/
theorem State.windowBlocks_idle {s : State} (h : s.AllLaunched) :
    ∃ (n : Nat) (u v : State), u = { s with pace := u.pace } ∧ v = { s with planner := v.planner } ∧
      s.windowBlocks = { s with planner := u.testedPlanner, pace := v.paceTake.pace, freeCount := n } := by
  obtain ⟨n, hw | hw⟩ := s.windowBlocks_cases
  · refine ⟨n, s, { s with planner := s.testedPlanner }, rfl, rfl, ?_⟩
    rw [hw, State.plannerWindow_idle h, State.paceTake_eq]
    rfl
  · have hp : s.paceTake = { s with pace := s.paceTake.pace } := s.paceTake_eq
    refine ⟨n, s.paceTake, s, hp, rfl, ?_⟩
    generalize s.paceTake = u at hw hp
    have hl : u.AllLaunched := by
      rw [hp]
      exact h
    have hpl := State.plannerWindow_idle hl
    generalize u.testedPlanner = q at hpl
    rw [hw, hpl, hp]
    rfl

/-- The state a window end forms before the two blocks (R13, R14). -/
def State.windowFormed (s : State) : State := { s with loop := s.loop.windowed, rep := s.windowReports.rep }

/-- A window end where no plan is retimed. -/
theorem exec_windowEnd_idle {s : State} (hr : s.pins.rstLow = false) (h : s.AllLaunched) :
    ∃ (n : Nat) (u v t : State), u = { s.windowFormed with pace := u.pace } ∧ v = { s.windowFormed with planner := v.planner } ∧
      exec .windowEnd s = .next t ∧ EventEnd { s.windowFormed with
        planner := u.testedPlanner, pace := v.paceTake.pace, freeCount := n } t := by
  obtain ⟨n, u, v, hu, hv, hw⟩ := State.windowBlocks_idle (s := s.windowFormed) h
  have hx := exec_windowEnd hr
  have hf : ({ s with loop := s.loop.windowed, rep := s.windowReports.rep } : State) = s.windowFormed := rfl
  rw [hf, hw] at hx
  refine ⟨n, u, v, _, hu, hv, hx, State.finish_eventEnd _ s false (.inl ?_)⟩
  have hq : ({ s.windowFormed with planner := u.testedPlanner, pace := v.paceTake.pace
                                   freeCount := n } : State).updateFeeds.txq = s.txq := by
    rw [State.updateFeeds_eq]
    rfl
  rw [queueEmptied, hq]
  simp

/-! ### The suspension (R120, R122) -/

/-- A planning event in which the other lane takes no part. -/
theorem State.planningEvent_alone {s : State} {l : Lane} (hm : s.mayPlan = true)
    (ho : s.takesPart (otherLane l) = false) :
    s.planningEvent = if s.takesPart l then (planParcels (s.offered l) l s).1 else s := by
  unfold State.planningEvent
  rw [if_pos hm]
  cases l with
  | l0 =>
    have h1 : s.takesPart .l1 = false := ho
    cases h0 : s.takesPart .l0 <;> simp [h1]
  | l1 =>
    have h0 : s.takesPart .l0 = false := ho
    cases h1 : s.takesPart .l1 <;> simp [h0]

theorem planParcels_suspends {s : State} {l : Lane} {r : Parcel} {younger : List Parcel}
    (hs : s.planner.suspended.get l = false) (h : s.cfgH < s.leadOf l r + s.cfgG) :
    planParcels (r :: younger) l s = ({ s with
        planner := { s.planner with suspended := s.planner.suspended.set l true }
        rep := (s.queueReport (.lane l (s.lane l).state .leadRange)).rep }, false) := by
  rw [planParcels]
  dsimp only
  rw [if_pos (show s.outOfRange (s.leadOf l r) = true from decide_eq_true h), State.suspend, hs]
  rfl

/-- Settles O26: a lane that offers a lead without an aim is suspended; a window end tests the suspensions on the
speed just formed. -/
theorem leadRangeSuspendsLane : Obligations.LeadRangeSuspendsLane := by
  unfold Obligations.LeadRangeSuspendsLane
  refine ⟨fun s l hm ho => ⟨fun r younger hs hoff hlead => ?_, fun hs => ?_⟩, fun s hr hl => ?_⟩
  · have ht : s.takesPart l = true := by simp [State.takesPart, hoff, hs]
    rw [State.planningEvent_alone hm ho, if_pos ht, hoff, planParcels_suspends hs hlead]
  · have ht : s.takesPart l = false := by simp [State.takesPart, hs]
    rw [State.planningEvent_alone hm ho, ht]
    rfl
  · obtain ⟨n, u, v, t, hu, -, hx, e⟩ := exec_windowEnd_idle hr hl
    refine ⟨t, hx, e.plans, e.txq, fun l => ?_⟩
    have h := u.testedPlanner_get l
    have ho : u.offered l = s.offered l := by rw [hu]; rfl
    have hle : ∀ r, u.leadOf l r = s.leadAt l (r.length.getD 0) (min s.loop.windowCount.toNat 600) := fun r => by
      rw [hu]
      rfl
    have hp : u.planner = s.planner := by rw [hu]; rfl
    have hH : u.cfgH = s.cfgH := by rw [hu]; rfl
    have hG : u.cfgG = s.cfgG := by rw [hu]; rfl
    rw [ho, hp, hH, hG] at h
    simp only [hle] at h
    rw [congrArg Planner.suspended e.planner]
    exact h

end Sys2Proof.Machine
end

section
/-! PROOF. The pace at a window end: the target from the supply of trays in reach, and the called entry with its
hysteresis (R119, R138 to R140). -/

open Sys2Proof Sys2Proof.Machine

namespace Sys2Proof.Machine

/-! ### The supply (R125, R138) -/

/-- The trays whose aims lie in reach of a lead. -/
def State.reach (s : State) (lead : Nat) (sp : Span) : List Nat :=
  (List.range s.cfgT).filter fun k =>
    decide (lead + s.cfgG ≤ s.fd s.loop.S (s.aimOf k sp)) && decide (s.fd s.loop.S (s.aimOf k sp) ≤ s.cfgH)

/-- The candidates are the trays in reach, each once, at their distances. -/
theorem State.candidates_perm {s : State} (hv : s.validated = true) (hS : s.loop.S < s.loopLength)
    (hp : 0 < s.cfgP) (lead : Nat) (sp : Span) :
    List.Perm (s.candidates lead sp) ((s.reach lead sp).map fun k => (s.fd s.loop.S (s.aimOf k sp), k)) := by
  have h1 : (s.candidates lead sp).Nodup :=
    (State.candidates_sorted hp lead sp).imp fun {a b} h e => absurd h (by rw [e]; exact lt_irrefl _)
  have h2 : ((s.reach lead sp).map fun k => (s.fd s.loop.S (s.aimOf k sp), k)).Nodup :=
    (List.nodup_range.filter _).map fun a b e => congrArg Prod.snd e
  refine (List.perm_ext_iff_of_nodup h1 h2).2 fun ⟨d, k⟩ => ?_
  rw [State.mem_candidates hv hS]
  simp only [State.reach, List.mem_map, List.mem_filter, List.mem_range, Bool.and_eq_true, decide_eq_true_eq,
    Prod.mk.injEq]
  constructor
  · rintro ⟨hk, hl, hh, rfl⟩
    exact ⟨k, ⟨hk, hl, hh⟩, rfl, rfl⟩
  · rintro ⟨j, ⟨hk, hl, hh⟩, rfl, rfl⟩
    exact ⟨hk, hl, hh, rfl⟩

theorem State.candidates_counts {s : State} (hv : s.validated = true) (hS : s.loop.S < s.loopLength)
    (hp : 0 < s.cfgP) (lead : Nat) (sp : Span) :
    (s.candidates lead sp).length = (s.reach lead sp).length ∧
      (s.candidates lead sp).countP (fun c => s.eligibleSpan c.2 sp) =
        ((s.reach lead sp).filter fun k => (s.namedTrays k sp).all s.eligible).length := by
  have h := State.candidates_perm hv hS hp lead sp
  refine ⟨h.length_eq.trans (List.length_map _), ?_⟩
  rw [h.countP_eq, List.countP_map, List.countP_eq_length_filter]
  rfl

/-! ### The target (R138) -/

theorem State.runningLanes_eq (s : State) :
    s.runningLanes = ([Lane.l0, .l1].filter fun l => (s.lane l).state == .running).length :=
  List.countP_eq_length_filter

theorem targetOf_eq (p w n vs f : Nat) :
    targetOf p w n vs f =
      if f = 0 ∨ 6000 < 100 * p * w * n / (vs * f) then none else some (100 * p * w * n / (vs * f)) := by
  unfold targetOf
  dsimp only
  generalize 100 * p * w * n / (vs * f) = ms
  by_cases hf : f = 0
  · rw [if_pos hf, if_pos (.inl hf)]
  · rw [if_neg hf]
    simp only [hf, false_or]

/-- The cases in which no target is formed whatever the supply (R138). -/
theorem State.noPace_iff (s : State) : (!s.locked || !s.online || s.loop.vs == 0 ||
      decide (s.loop.vs < s.cfgMinSpeed) || s.runningLanes == 0) = true ↔
    s.loop.lock = .unlocked ∨ s.table.station ≠ .online ∨ s.loop.vs = 0 ∨ s.loop.vs < s.cfgMinSpeed ∨
      s.runningLanes = 0 := by
  have hl : (!s.locked) = true ↔ s.loop.lock = .unlocked := by
    unfold State.locked
    cases s.loop.lock <;> decide
  have ho : (!s.online) = true ↔ s.table.station ≠ .online := by
    unfold State.online
    cases s.table.station <;> decide
  simp only [Bool.or_eq_true, hl, ho, beq_iff_eq, decide_eq_true_eq, or_assoc]

/-- The target a window end forms, over the trays in reach of the nominal parcel. -/
theorem State.paceTarget_eq {s : State} (hv : s.validated = true) (hS : s.loop.S < s.loopLength)
    (hp : 0 < s.cfgP) {reach : List Nat}
    (hr : s.reach (s.leadAt .l0 s.cfgNominal s.loop.vs) s.nominalSpan = reach) {f : Nat}
    (hf : (reach.filter fun k => (s.namedTrays k s.nominalSpan).all s.eligible).length = f) {ms : Nat}
    (hms : 100 * s.cfgP * reach.length * s.runningLanes / (s.loop.vs * f) = ms) :
    s.paceTarget = if s.loop.lock = .unlocked ∨ s.table.station ≠ .online ∨ s.loop.vs = 0 ∨
        s.loop.vs < s.cfgMinSpeed ∨ s.runningLanes = 0 ∨ f = 0 ∨ 6000 < ms then none else some ms := by
  obtain ⟨h1, h2⟩ := State.candidates_counts hv hS hp (s.leadAt .l0 s.cfgNominal s.loop.vs) s.nominalSpan
  have e1 : s.supply.length = reach.length := h1.trans (congrArg List.length hr)
  have e2 : s.supply.countP (fun c => s.eligibleSpan c.2 s.nominalSpan) = f := by
    rw [hr] at h2
    exact h2.trans hf
  unfold State.paceTarget
  rw [e1, e2, targetOf_eq, hms]
  by_cases h : s.loop.lock = .unlocked ∨ s.table.station ≠ .online ∨ s.loop.vs = 0 ∨
      s.loop.vs < s.cfgMinSpeed ∨ s.runningLanes = 0
  · rw [if_pos (s.noPace_iff.2 h), if_pos]
    rcases h with h | h | h | h | h
    · exact .inl h
    · exact .inr (.inl h)
    · exact .inr (.inr (.inl h))
    · exact .inr (.inr (.inr (.inl h)))
    · exact .inr (.inr (.inr (.inr (.inl h))))
  · rw [if_neg (mt s.noPace_iff.1 h)]
    simp only [not_or] at h
    obtain ⟨n1, n2, n3, n4, n5⟩ := h
    exact if_congr (by simp only [n1, n2, n3, n4, n5, false_or]) rfl rfl

/-! ### From target to entry (R139, R140) -/

theorem State.paceLaneWindow_get (s : State) (target : Option Nat) (l m : Lane) :
    (s.paceLaneWindow target l).pace.lanes.get m =
      if m = l ∧ (s.lane l).state = .running then
        ((s.pace.lanes.get l).window target (s.cfgMinEntry l)).pulseDue else s.pace.lanes.get m := by
  unfold State.paceLaneWindow
  by_cases h : (s.lane l).state = .running
  · rw [if_pos h]
    by_cases hm : m = l
    · subst hm
      rw [if_pos ⟨rfl, h⟩]
      exact Two.get_set_self ..
    · rw [if_neg (fun hc => hm hc.1)]
      exact Two.get_set_ne _ _ hm
  · rw [if_neg h, if_neg (fun hc => h hc.2)]

theorem State.paceLaneWindow_keeps (s : State) (target : Option Nat) (l : Lane) :
    (s.paceLaneWindow target l).lanes = s.lanes ∧ (s.paceLaneWindow target l).table = s.table ∧
      (s.paceLaneWindow target l).pace.target = s.pace.target := by
  unfold State.paceLaneWindow
  split <;> exact ⟨rfl, rfl, rfl⟩

theorem State.paceTake_target (s : State) : s.paceTake.pace.target = s.paceTarget := by
  have h : (((s.modPace fun p => { p with target := s.paceTarget }).paceLaneWindow s.paceTarget
      .l0).paceLaneWindow s.paceTarget .l1).pace.target = s.paceTarget :=
    (State.paceLaneWindow_keeps ..).2.2.trans (State.paceLaneWindow_keeps ..).2.2
  unfold State.paceTake State.paceWindow
  dsimp only
  split <;> exact h

/-- While the loop moves, a RUNNING lane's pace takes the target and the other's stays. -/
theorem State.paceTake_lane {s : State} (hm : s.loop.motion = .moving) (l : Lane) :
    s.paceTake.pace.lanes.get l = if (s.lane l).state = .running then
      ((s.pace.lanes.get l).window s.paceTarget (s.cfgMinEntry l)).pulseDue else s.pace.lanes.get l := by
  unfold State.paceTake State.paceWindow
  dsimp only
  rw [if_neg (by rw [hm]; nofun), State.paceLaneWindow_get, State.paceLaneWindow_get]
  obtain ⟨hl, ht, -⟩ := State.paceLaneWindow_keeps (s.modPace fun p => { p with target := s.paceTarget })
    s.paceTarget .l0
  have hlane : (State.paceLaneWindow (s.modPace fun p => { p with target := s.paceTarget }) s.paceTarget .l0).lane .l1 =
      s.lane .l1 := congrArg (Two.get · Lane.l1) hl
  have hmin : State.cfgMinEntry (State.paceLaneWindow (s.modPace fun p => { p with target := s.paceTarget })
      s.paceTarget .l0) .l1 = s.cfgMinEntry .l1 := by
    unfold State.cfgMinEntry State.cw
    rw [ht]
    rfl
  rw [hlane, hmin]
  cases l with
  | l0 =>
    simp [State.paceLaneWindow_get]
    rfl
  | l1 => simp [State.paceLaneWindow_get]

theorem PaceLane.pulseDue_kept (p : PaceLane) : SamePace p p.pulseDue := by
  unfold PaceLane.pulseDue
  split <;> exact ⟨rfl, rfl, rfl⟩

/-- R139: the called index is the first whose interval is at least the target. -/
theorem calledIndex_eq {wanted c slow : Nat} (hc : Config.cadence[c]? = some slow) (hs : wanted ≤ slow)
    (hf : ∀ j fast, j < c → Config.cadence[j]? = some fast → fast < wanted) : calledIndex wanted = c := by
  obtain ⟨hlt, he⟩ := List.getElem?_eq_some_iff.1 hc
  refine (List.findIdx_eq hlt).2 ⟨by simpa [he] using hs, fun j hj => ?_⟩
  have hjl : j < Config.cadence.length := hj.trans hlt
  have := hf j Config.cadence[j] hj (List.getElem?_eq_getElem hjl)
  simpa using this

/-- R140: what a called entry leaves. -/
theorem PaceLane.call_cases (p : PaceLane) (entry : Nat) :
    (p.call entry).valid = true ∧
      (p.index ≤ entry → (p.call entry).index = entry ∧ (p.call entry).hyst = 0) ∧
      (entry < p.index → p.hyst + 1 = 5 → (p.call entry).index = entry ∧ (p.call entry).hyst = 0) ∧
      (entry < p.index → p.hyst + 1 ≠ 5 → (p.call entry).index = p.index ∧ (p.call entry).hyst = p.hyst + 1) := by
  unfold PaceLane.call
  by_cases h : p.index ≤ entry
  · rw [if_pos h]
    exact ⟨rfl, fun _ => ⟨rfl, rfl⟩, fun hc => absurd h (Nat.not_le.2 hc), fun hc => absurd h (Nat.not_le.2 hc)⟩
  · rw [if_neg h]
    by_cases h5 : p.hyst + 1 = 5
    · rw [if_pos h5]
      exact ⟨rfl, fun hc => absurd hc h, fun _ _ => ⟨rfl, rfl⟩, fun _ hc => absurd h5 hc⟩
    · rw [if_neg h5]
      exact ⟨rfl, fun hc => absurd hc h, fun _ hc => absurd hc h5, fun _ _ => ⟨rfl, rfl⟩⟩

/-- Settles O28: the target from all trays in reach at the speed just formed, then each lane's entry. -/
theorem windowEndSetsPaces : Obligations.WindowEndSetsPaces := by
  unfold Obligations.WindowEndSetsPaces
  intro s hr hv hS hl cadence v sp lead reach W F n ms target
  obtain ⟨_, _, w, t, -, hw, hx, e⟩ := exec_windowEnd_idle hr hl
  have hp : 0 < s.cfgP := by
    obtain ⟨-, hP, -, -⟩ := s.validated_geometry hv
    omega
  have hlanes : ∀ l, w.lane l = s.lane l := fun l => by rw [hw]; rfl
  have hpace : ∀ l, w.pace.lanes.get l = s.pace.lanes.get l := fun l => by rw [hw]; rfl
  have hmin : ∀ l, w.cfgMinEntry l = s.cfgMinEntry l := fun l => by rw [hw]; rfl
  have hloop : w.loop = s.loop.windowed := by rw [hw]; rfl
  have htarget : w.paceTarget = target := by
    have hS' : w.loop.S < w.loopLength := by rw [hw]; exact hS
    have hv' : w.validated = true := by rw [hw]; exact hv
    have hp' : 0 < w.cfgP := by rw [hw]; exact hp
    have hreach : w.reach (w.leadAt .l0 w.cfgNominal w.loop.vs) w.nominalSpan = reach := by rw [hw]; rfl
    have hF : (reach.filter fun k => (w.namedTrays k w.nominalSpan).all w.eligible).length = F := by rw [hw]; rfl
    have hn : w.runningLanes = n := by
      rw [w.runningLanes_eq, hw]
      rfl
    have hms : 100 * w.cfgP * reach.length * w.runningLanes / (w.loop.vs * F) = ms := by
      rw [hn, hw]
      rfl
    have h := State.paceTarget_eq hv' hS' hp' hreach hF hms
    rw [h, hn, hw]
    rfl
  refine ⟨t, hx, e.target.trans (w.paceTake_target.trans htarget), fun l hm => ?_⟩
  intro old new
  have hmw : w.loop.motion = .moving := by
    rw [hloop]
    exact (congrArg LoopTracker.motion e.loop).symm.trans hm
  have hlane := State.paceTake_lane hmw l
  rw [hlanes, hpace, hmin, htarget] at hlane
  have hi : new.index = (w.paceTake.pace.lanes.get l).index := e.index l
  have hva : new.valid = (w.paceTake.pace.lanes.get l).valid := e.valid l
  have hh : new.hyst = (w.paceTake.pace.lanes.get l).hyst := e.hyst l
  rw [hlane] at hi hva hh
  refine ⟨fun hrun => ?_, fun hrun htg => ?_, fun wanted c slow hrun htg hc hsl hfast => ?_⟩
  · rw [if_neg hrun] at hi hva hh
    exact ⟨hi, hh, hva⟩
  · rw [if_pos hrun, htg] at hi hva hh
    have k := ((s.pace.lanes.get l).window none (s.cfgMinEntry l)).pulseDue_kept
    exact ⟨hi.trans k.index, hh.trans k.hyst, hva.trans k.valid⟩
  · rw [if_pos hrun, htg] at hi hva hh
    have k := ((s.pace.lanes.get l).window (some wanted) (s.cfgMinEntry l)).pulseDue_kept
    have hcall : (s.pace.lanes.get l).window (some wanted) (s.cfgMinEntry l) =
        (s.pace.lanes.get l).call (max c (s.cfgMinEntry l)) := by
      simp only [PaceLane.window, calledIndex_eq hc hsl hfast]
    rw [hcall] at k hi hva hh
    intro called
    obtain ⟨h1, h2, h3, h4⟩ := (s.pace.lanes.get l).call_cases called
    have ki := hi.trans k.index
    have kh := hh.trans k.hyst
    refine ⟨(hva.trans k.valid).trans h1, fun h => ?_, fun h h5 => ?_, fun h h5 => ?_⟩
    · exact ⟨ki.trans (h2 h).1, kh.trans (h2 h).2⟩
    · exact ⟨ki.trans (h3 h h5).1, kh.trans (h3 h h5).2⟩
    · exact ⟨ki.trans (h4 h h5).1, kh.trans (h4 h h5).2⟩

end Sys2Proof.Machine
end

section
/-! PROOF. A window end retimes the unlaunched plan (R119, R130 to R133): re-armed, launched at once, or missed. -/

open Sys2Proof Sys2Proof.Machine

namespace Sys2Proof.Machine

/-! ### The Planner's part, whichever block comes first -/

theorem State.windowBlocks_planner (s : State) :
    ∃ (n : Nat) (v : State) (q : Pace), v = { s with pace := v.pace } ∧
      s.windowBlocks = { v.plannerWindow with pace := q, freeCount := n } := by
  obtain ⟨n, hw | hw⟩ := s.windowBlocks_cases
  · refine ⟨n, s, s.plannerWindow.paceTake.pace, rfl, ?_⟩
    rw [hw, State.paceTake_eq]
    rfl
  · refine ⟨n, s.paceTake, s.paceTake.plannerWindow.pace, s.paceTake_eq, ?_⟩
    rw [hw]
    rfl

/-- A window end of a station not LEAVING: the Planner's part, the pace, and feeds and aspects after them. -/
theorem exec_windowEnd_planner {s : State} (hr : s.pins.rstLow = false) (hs : s.table.station ≠ .leaving) :
    ∃ (v x t : State), v = { s.windowFormed with pace := v.pace } ∧
      x = { v.plannerWindow with pace := x.pace, freeCount := x.freeCount } ∧
      exec .windowEnd s = .next t ∧ EventEnd x t ∧ ∀ l, (t.lane l).parcels = (x.lane l).parcels := by
  obtain ⟨n, v, q, hv, hw⟩ := s.windowFormed.windowBlocks_planner
  have hx := exec_windowEnd hr
  have hf : ({ s with loop := s.loop.windowed, rep := s.windowReports.rep } : State) = s.windowFormed := rfl
  rw [hf, hw] at hx
  obtain ⟨x, hxe⟩ : ∃ x : State, x = { v.plannerWindow with pace := q, freeCount := n } := ⟨_, rfl⟩
  rw [← hxe] at hx
  have ht : x.table = s.table := by
    have h1 : x.table = v.plannerWindow.table := by rw [hxe]
    have h2 : v.table = s.table := by rw [hv]; rfl
    exact h1.trans (v.plannerWindow_planWork.table.trans h2)
  have hend : (false || queueEmptied s x.updateFeeds) = false ∨ x.updateFeeds.leavingDone = false := by
    refine .inr ?_
    have : x.updateFeeds.table = x.table := by rw [State.updateFeeds_eq]; rfl
    simp [State.leavingDone, this, ht, hs]
  refine ⟨v, x, x.finish s false, hv, by rw [hxe], hx, State.finish_eventEnd _ s false hend, fun l => ?_⟩
  rw [State.finish_eq _ _ _ hend]
  have hl : x.updateFeeds.retakeAspects.drive.lanes = x.updateFeeds.lanes := by
    rw [State.drive_eq, State.setOuts_lanes, State.retakeAspects_lanes]
  have := x.updateFeeds_lane l
  rw [State.lane, hl]
  exact (congrArg LaneCtl.parcels this :)

/-! ### One plan to retime -/

/-- The plan in a slot is the only one that lives. -/
def State.OnePlan (s : State) (l : Lane) (sl : Slot) : Prop := ∀ m sm q, s.plan m sm = some q → m = l ∧ sm = sl

theorem State.OnePlan.noOther {s : State} {l m : Lane} {sl sm : Slot} (h : s.OnePlan l sl) (hn : ¬ (m = l ∧ sm = sl)) :
    s.plan m sm = none := by
  cases hq : s.plan m sm with
  | none => rfl
  | some q => exact absurd (h m sm q hq) hn

theorem otherSlot_ne (sl : Slot) : otherSlot sl ≠ sl := by cases sl <;> decide

theorem State.OnePlan.slotsByAge {s : State} {l : Lane} {sl : Slot} {p : Plan} (h : s.OnePlan l sl)
    (hp : s.plan l sl = some p) : s.slotsByAge l = [sl] := by
  have ho := h.noOther (m := l) (sm := otherSlot sl) fun hc => otherSlot_ne sl hc.2
  unfold State.slotsByAge
  cases sl with
  | s0 =>
    have ho' : s.plan l .s1 = none := ho
    rw [hp, ho']
  | s1 =>
    have ho' : s.plan l .s0 = none := ho
    rw [hp, ho']

theorem State.OnePlan.lanesToRetime {s : State} {l : Lane} {sl : Slot} {p : Plan} (h : s.OnePlan l sl)
    (hp : s.plan l sl = some p) (hu : p.state ≠ .launched) : s.lanesToRetime = [l] := by
  have hl : s.hasUnlaunched l = true := by
    refine List.any_eq_true.2 ⟨sl, by cases sl <;> simp, ?_⟩
    rw [hp]
    exact bne_iff_ne.2 hu
  have ho : s.hasUnlaunched (otherLane l) = false := by
    refine List.any_eq_false.2 fun sm _ => ?_
    rw [h.noOther fun hc => by cases l <;> exact absurd hc.1 (by decide)]
    exact Bool.false_ne_true
  unfold State.lanesToRetime bothLanes
  cases l with
  | l0 =>
    have ho' : s.hasUnlaunched .l1 = false := ho
    simp [hl, ho']
  | l1 =>
    have ho' : s.hasUnlaunched .l0 = false := ho
    simp [hl, ho']

/-- The Planner's part where one plan is retimed. -/
theorem State.plannerWindow_one {s : State} {l : Lane} {sl : Slot} {p : Plan} (h : s.OnePlan l sl)
    (hp : s.plan l sl = some p) (hu : p.state ≠ .launched) {w : State} (hw : s.retime l sl = w) :
    s.plannerWindow = if planEnded s w then ({ w with planner := w.testedPlanner } : State).planningEvent
      else { w with planner := w.testedPlanner } := by
  have hr := h.lanesToRetime hp hu
  have hlen : s.lanesToRetime.length ≤ 1 := by simp [hr]
  unfold State.plannerWindow
  rw [State.freeOrder_of_short s hlen, State.afterOrder_of_short s hlen, hr, List.foldl_cons, List.foldl_nil,
    State.retimeLane, h.slotsByAge hp, List.foldl_cons, List.foldl_nil, hw]
  dsimp only
  rw [State.testSuspensions_eq]
  rfl

/-- R131: the plan's lead and trigger become the new ones. -/
def Plan.retimed (p : Plan) (lead trigger : Nat) : Plan := { p with lead := lead, trigger := trigger }

section
variable {s : State} {l : Lane} {sl : Slot} {p : Plan} {r : Parcel}

theorem State.retime_reached (hp : s.plan l sl = some p) (hu : p.state ≠ .launched)
    (hr : (s.lane l).bySlot? sl = some r) (ht : (s.trig.get l sl).isSome = true)
    (hl : s.leadOf l r ≤ s.fd s.loop.S p.aim) :
    s.retime l sl = (s.setPlan l sl (some (p.retimed (s.leadOf l r) (s.fd (s.leadOf l r) p.aim)))).arm l sl
      (s.fd (s.leadOf l r) p.aim) := by
  unfold State.retime
  rw [hp]
  dsimp only
  rw [if_neg hu, hr]
  dsimp only
  rw [if_neg (Nat.not_lt.2 hl), State.rearm]
  exact if_pos ht

theorem State.retime_nearer (hp : s.plan l sl = some p) (hu : p.state ≠ .launched)
    (hr : (s.lane l).bySlot? sl = some r) (hl : s.fd s.loop.S p.aim < s.leadOf l r) :
    s.retime l sl = s.endPlan .miss l sl := by
  unfold State.retime
  rw [hp]
  dsimp only
  rw [if_neg hu, hr]
  exact if_pos hl

theorem State.arm_of_reached {position : Nat} (hl : s.locked = true) (hp : s.alreadyReached position = true)
    (l : Lane) (sl : Slot) :
    s.arm l sl position = (s.setTrig (s.trig.set l sl (some position))).takeTrigger l sl := by
  have ha : (s.setTrig (s.trig.set l sl (some position))).alreadyReached position = true := hp
  unfold State.arm
  rw [if_pos hl]
  dsimp only
  rw [if_pos ha]

/-- A slot that holds a plan before and after: no plan has ended. -/
theorem planEnded_of_set (hp : s.plan l sl = some p) {t : State} {q : Plan} (ht : t.plans = s.plans.set l sl (some q)) :
    planEnded s t = false := by
  refine planEnded_of_isSome_eq fun m sm => ?_
  have h : t.plan m sm = (s.plans.set l sl (some q)).get m sm := congrArg (Four.get · m sm) ht
  rw [h]
  by_cases e : (m, sm) = (l, sl)
  · obtain ⟨rfl, rfl⟩ := Prod.mk.inj e
    rw [Four.get_set_self, hp]
    rfl
  · rw [Four.get_set_ne _ _ e]
    rfl

theorem State.plannerWindow_keeps (h : s.OnePlan l sl) (hp : s.plan l sl = some p) (hu : p.state ≠ .launched)
    {w : State} (hw : s.retime l sl = w) {q : Plan} (hq : w.plans = s.plans.set l sl (some q)) :
    ∃ pl, s.plannerWindow = { w with planner := pl } := by
  refine ⟨w.testedPlanner, (State.plannerWindow_one h hp hu hw).trans ?_⟩
  rw [planEnded_of_set hp hq]
  rfl

/-- R10, R131: the plan re-armed ahead of the loop. -/
theorem State.plannerWindow_rearmed (h : s.OnePlan l sl) (hp : s.plan l sl = some p) (hu : p.state ≠ .launched)
    (hr : (s.lane l).bySlot? sl = some r) (ht : (s.trig.get l sl).isSome = true) (hk : s.locked = true)
    (hl : s.leadOf l r ≤ s.fd s.loop.S p.aim)
    (ha : s.alreadyReached (s.fd (s.leadOf l r) p.aim) = false) :
    ∃ q, s.plannerWindow = { s with
      plans := s.plans.set l sl (some (p.retimed (s.leadOf l r) (s.fd (s.leadOf l r) p.aim)))
      trig := s.trig.set l sl (some (s.fd (s.leadOf l r) p.aim)), planner := q } := by
  have hw := State.retime_reached hp hu hr ht hl
  rw [State.arm_of_ahead (by exact hk) (by exact ha)] at hw
  exact State.plannerWindow_keeps h hp hu hw rfl

/-- R11, R93, R131: the loop has come to the new trigger, and the parcel is READY: the launch. -/
theorem State.plannerWindow_launched (h : s.OnePlan l sl) (hp : s.plan l sl = some p) (hc : p.state = .claimed)
    (hr : (s.lane l).bySlot? sl = some r) (hpl : r.place = .ready) (ht : (s.trig.get l sl).isSome = true)
    (hk : s.locked = true) (hl : s.leadOf l r ≤ s.fd s.loop.S p.aim)
    (ha : s.alreadyReached (s.fd (s.leadOf l r) p.aim) = true) :
    ∃ q a tr, tr.get l sl = none ∧ s.plannerWindow = { s with
      plans := s.plans.set l sl (some (s.launchedPlan (p.retimed (s.leadOf l r) (s.fd (s.leadOf l r) p.aim))))
      trig := tr, aims := a, planner := q
      lanes := s.lanes.set l (s.launchedLane l (p.retimed (s.leadOf l r) (s.fd (s.leadOf l r) p.aim))) } := by
  obtain ⟨p', hp'⟩ : ∃ p', p' = p.retimed (s.leadOf l r) (s.fd (s.leadOf l r) p.aim) := ⟨_, rfl⟩
  have hw := State.retime_reached hp (by rw [hc]; nofun) hr ht hl
  rw [← hp'] at hw ⊢
  have hc' : p'.state = .claimed := by rw [hp']; exact hc
  rw [State.arm_of_reached (by exact hk) (by exact ha)] at hw
  obtain ⟨v, hv⟩ : ∃ v, v = (s.setPlan l sl (some p')).setTrig
    ((s.setPlan l sl (some p')).trig.set l sl (some (s.fd (s.leadOf l r) p.aim))) := ⟨_, rfl⟩
  rw [← hv] at hw
  have hvp : v.plan l sl = some p' := by rw [hv]; exact State.setPlan_plan_self _ l sl _
  have hvr : (v.lane l).bySlot? sl = some r := by rw [hv]; exact hr
  rw [State.takeTrigger_launches hvp hc' hvr hpl, State.launch_eq] at hw
  have hpl2 : ((v.setTrig (v.trig.set l sl none)).plans.set l sl
      (some ((v.setTrig (v.trig.set l sl none)).launchedPlan p'))) = s.plans.set l sl (some (s.launchedPlan p')) := by
    rw [hv]
    cases l <;> cases sl <;> rfl
  obtain ⟨q, hq⟩ := State.plannerWindow_keeps h hp (by rw [hc]; nofun) hw hpl2
  refine ⟨q, s.plannerWindow.aims, v.trig.set l sl none, Four.get_set_self .., ?_⟩
  rw [hq, hpl2, hv]
  rfl

/-! ### The miss of the only plan -/

/-- R98, R133: the only plan ends by a miss, whatever room the queue has: its record counts one miss more. -/
theorem State.endPlan_miss_only (hp : s.plan l sl = some p) (ho : s.plan l (otherSlot sl) = none)
    (hr : (s.lane l).bySlot? sl = some r) (ht : r.tag = p.tag) (hst : (s.lane l).state ≠ .stopped) :
    ∃ q ∈ ((s.endPlan .miss l sl).lane l).parcels, q.tag = r.tag ∧ q.misses = r.misses + 1 := by
  have he := State.endPlan_sole (e := .miss) hp ho
  have hu : ∀ m, LaneUnplanned (s.lane m) ((if p.state = .tentative then
        (s.unplan l sl p).withdrawClaim { lane := l, tag := p.tag }
      else work 15 (.place (plainEntry .release p.target p.span)) (s.unplan l sl p)).lane m) := by
    have h1 := laneUnplanned_workRel.unplan s l sl p
    intro m
    refine (h1 m).trans ?_
    split
    · exact laneUnplanned_workRel.claim _ _ m
    · exact laneUnplanned_workRel.work 15 (.place _) _ nofun m
  generalize (if p.state = .tentative then (s.unplan l sl p).withdrawClaim { lane := l, tag := p.tag }
      else work 15 (.place (plainEntry .release p.target p.span)) (s.unplan l sl p)) = v at he hu
  obtain ⟨f, hf, hfm⟩ := hu l
  have hmem : f r ∈ (v.lane l).parcels := by
    rw [hf]
    exact List.mem_map_of_mem (List.mem_of_find?_eq_some hr)
  have hfr : (f r).tag = r.tag ∧ (f r).misses = r.misses := by
    rcases hfm r with h | h <;> rw [h] <;> exact ⟨rfl, rfl⟩
  have hst' : (v.lane l).state ≠ .stopped := by
    rw [hf]
    exact hst
  obtain ⟨r0, hr0⟩ : ∃ r0, (v.lane l).parcel? p.tag = some r0 :=
    Option.isSome_iff_exists.1 (List.find?_isSome.2 ⟨_, hmem, by simp [hfr.1, ht]⟩)
  obtain ⟨g, hg, hgm⟩ := State.addMiss_parcels hr0 hst'
  have hself := (hgm (f r)).self (hfr.1.trans ht)
  rw [he]
  refine ⟨g (f r), ?_, (congrArg Parcel.tag hself : _).trans hfr.1, ?_⟩
  · show g (f r) ∈ ((v.addMiss l p.tag).lane l).parcels
    rw [hg]
    exact List.mem_map_of_mem hmem
  · exact (congrArg Parcel.misses hself :).trans (congrArg (· + 1) hfr.2)

theorem ParcelsKept.exists_image {ps qs : List Parcel} (h : ParcelsKept ps qs) (hl : qs.length = ps.length)
    {p : Parcel} (hp : p ∈ ps) : ∃ q ∈ qs, ParcelKept p q := by
  induction h with
  | nil =>
    rw [List.eq_nil_of_length_eq_zero hl.symm] at hp
    cases hp
  | cons e _ ih =>
    rcases List.mem_cons.1 hp with rfl | hp
    · exact ⟨_, List.mem_cons_self, e⟩
    · obtain ⟨q, hq, k⟩ := ih (by simpa using hl) hp
      exact ⟨q, List.mem_cons_of_mem _ hq, k⟩
  | cons_right h' _ =>
    have := ParcelsKept.length_le h'
    simp at hl
    omega

/-- R132: the miss at a window end, and the planning event it raises. -/
theorem State.plannerWindow_missed (h : s.OnePlan l sl) (hp : s.plan l sl = some p) (hu : p.state ≠ .launched)
    (hr : (s.lane l).bySlot? sl = some r) (ht : r.tag = p.tag) (hst : (s.lane l).state ≠ .stopped)
    (hl : s.fd s.loop.S p.aim < s.leadOf l r) :
    (∃ q ∈ (s.plannerWindow.lane l).parcels, q.tag = r.tag ∧ r.misses < q.misses) ∧
      (s.loop.vs < s.cfgMinSpeed → s.plannerWindow.plan l sl = none ∧ s.plannerWindow.trig.get l sl = none ∧
        ∃ q ∈ (s.plannerWindow.lane l).parcels, q.tag = r.tag ∧ q.misses = r.misses + 1) := by
  have hw := State.plannerWindow_one h hp hu (State.retime_nearer hp hu hr hl)
  have ho := h.noOther (m := l) (sm := otherSlot sl) fun hc => otherSlot_ne sl hc.2
  obtain ⟨q, hq, hqt, hqm⟩ := State.endPlan_miss_only hp ho hr ht hst
  have hn := s.endPlan_plan .miss l sl
  have htr := State.endPlan_miss_trig hp
  have hk := s.endPlan_planWork .miss l sl
  generalize s.endPlan .miss l sl = u at hw hq hn htr hk
  have hend : planEnded s u = true := by
    refine List.any_eq_true.2 ⟨(l, sl), by cases l <;> cases sl <;> decide, ?_⟩
    simp [hp, hn]
  rw [hend, if_pos rfl] at hw
  obtain ⟨v, hv⟩ : ∃ v : State, v = { u with planner := u.testedPlanner } := ⟨_, rfl⟩
  have hvl : v.lane l = u.lane l := by rw [hv]; rfl
  rw [← hv] at hw
  constructor
  · have hpw := v.planningEvent_planWork.lanes l
    have hst' : (v.lane l).state ≠ .stopped := by
      rw [hvl]
      rcases (hk.lanes l).state with e | e
      · rw [e]; exact hst
      · rw [e.2]; nofun
    rw [← hvl] at hq
    obtain ⟨q', hq', k⟩ := hpw.parcels.exists_image (hpw.whole hst') hq
    rw [hw]
    refine ⟨q', hq', k.tag.trans hqt, ?_⟩
    have := k.misses
    omega
  · intro hslow
    have hm : v.mayPlan = false := by
      have : v.mayPlan = s.mayPlan := State.mayPlan_congr (by rw [hv]; exact hk.loop) (by rw [hv]; exact hk.table)
      rw [this]
      simp [State.mayPlan, Nat.not_le.2 hslow]
    have hpe : v.planningEvent = v := by simp [State.planningEvent, hm]
    rw [hw, hpe]
    exact ⟨by rw [hv]; exact hn, by rw [hv]; exact htr, q, by rw [hvl]; exact hq, hqt, hqm⟩

end

/-- Settles O27: the plan retimed in the Planner's part, which reads the loop as the window end formed it. -/
theorem windowEndRetimesPlans : Obligations.WindowEndRetimesPlans := by
  unfold Obligations.WindowEndRetimesPlans
  intro s l sl p hr hlock ho hp hone
  refine ⟨fun hla => ?_, fun r hu hby htag hst htr => ?_⟩
  · have hall : s.AllLaunched := fun m sm q hq => by
      obtain ⟨rfl, rfl⟩ := hone m sm q hq
      rw [hp, Option.some.injEq] at hq
      exact hq ▸ hla
    obtain ⟨_, _, _, t, -, -, hx, e⟩ := exec_windowEnd_idle hr hall
    exact ⟨t, hx, (e.plan l sl).trans hp⟩
  · intro v lead trigger
    obtain ⟨w, x, t, hw, hxe, hx, e, hpar⟩ := exec_windowEnd_planner hr (by rw [ho]; nofun)
    have hwone : w.OnePlan l sl := by rw [hw]; exact hone
    have hwp : w.plan l sl = some p := by rw [hw]; exact hp
    have hwl : ∀ m, w.lane m = s.lane m := fun m => by rw [hw]; rfl
    have hwby : (w.lane l).bySlot? sl = some r := by rw [hwl]; exact hby
    have hwt : (w.trig.get l sl).isSome = true := by rw [hw]; exact htr
    have hwk : w.locked = true := by
      have hk : s.locked = true := s.locked_iff.2 hlock
      rw [hw]
      exact hk
    have hlead : w.leadOf l r = lead := by rw [hw]; rfl
    have hfd : w.fd w.loop.S p.aim = s.fd s.loop.S p.aim := by rw [hw]; rfl
    have htrig : w.fd (w.leadOf l r) p.aim = trigger := by rw [hlead, hw]; rfl
    have hal : ∀ b, s.alreadyReached trigger = b → w.alreadyReached (w.fd (w.leadOf l r) p.aim) = b := fun b hb => by
      rw [htrig, hw]
      exact hb
    have hwx : ∀ m, x.lane m = w.plannerWindow.lane m := fun m => by rw [hxe]; rfl
    refine ⟨fun hle ha => ⟨t, hx, ?_⟩, fun hle ha hc hpl => ⟨t, hx, ?_⟩, fun hlt => ⟨t, hx, ?_⟩⟩
    · obtain ⟨q, hq⟩ := State.plannerWindow_rearmed hwone hwp hu hwby hwt hwk (by rw [hlead, hfd]; exact hle)
        (hal _ ha)
      rw [htrig, hlead] at hq
      have hxl : ∀ m, (t.lane m).parcels = (s.lane m).parcels := fun m => by rw [hpar, hwx, hq, ← hwl]; rfl
      refine ⟨(e.plan l sl).trans ?_, (congrArg (Four.get · l sl) e.trig).trans ?_, e.trays.trans ?_,
        e.txq.trans ?_, hxl .l0, hxl .l1⟩
      · rw [hxe, hq]; exact Four.get_set_self ..
      · rw [hxe, hq]; exact Four.get_set_self ..
      · rw [hxe, hq, hw]; rfl
      · rw [hxe, hq, hw]; rfl
    · obtain ⟨q, a, tr, htr', hq⟩ := State.plannerWindow_launched hwone hwp hc hwby hpl hwt hwk
        (by rw [hlead, hfd]; exact hle) (hal _ ha)
      have hlane : x.lane l = w.launchedLane l (p.retimed (w.leadOf l r) (w.fd (w.leadOf l r) p.aim)) := by
        rw [hwx, hq]
        exact Two.get_set_self ..
      have hplan : x.plan l sl =
          some (w.launchedPlan (p.retimed (w.leadOf l r) (w.fd (w.leadOf l r) p.aim))) := by
        rw [hxe, hq]
        exact Four.get_set_self ..
      refine ⟨?_, (congrArg (Four.get · l sl) e.trig).trans ?_, (e.lanes l).launch.trans ?_, e.trays.trans ?_,
        e.txq.trans ?_⟩
      · rw [e.plan, hplan]; rfl
      · rw [hxe, hq]; exact htr'
      · rw [hlane, hw]; rfl
      · rw [hxe, hq, hw]; rfl
      · rw [hxe, hq, hw]; rfl
    · obtain ⟨h1, h2⟩ := State.plannerWindow_missed hwone hwp hu hwby htag (by rw [hwl]; exact hst)
        (by rw [hlead, hfd]; exact hlt)
      rw [← hwx] at h1 h2
      rw [hpar]
      refine ⟨h1, fun hslow => ?_⟩
      obtain ⟨k1, k2, k3⟩ := h2 (by rw [hw]; exact hslow)
      exact ⟨(e.plan l sl).trans (by rw [hxe]; exact k1),
        (congrArg (Four.get · l sl) e.trig).trans (by rw [hxe]; exact k2), k3⟩

end Sys2Proof.Machine
end

section
/-! PROOF. The planning event (R121 to R124, R128): which lane is served, and what its oldest parcel gets. -/

open Sys2Proof Sys2Proof.Machine

namespace Sys2Proof.Machine

/-! ### The arbiter record stays in a lane's planning -/

theorem State.takeTrigger_planner (s : State) (l : Lane) (sl : Slot) : (s.takeTrigger l sl).planner = s.planner := by
  have he : ∀ u : State, (u.endPlan .miss l sl).planner = u.planner := fun u =>
    (planEnds_workRel.endPlan u trivial l sl).planner
  unfold State.takeTrigger
  dsimp only
  split
  · rfl
  · split
    · split
      · rw [State.launch_eq]; rfl
      · exact he _
    · exact he _
    · rfl

theorem State.arm_planner (s : State) (l : Lane) (sl : Slot) (position : Nat) :
    (s.arm l sl position).planner = s.planner := by
  unfold State.arm
  dsimp only
  split
  · split
    · exact State.takeTrigger_planner ..
    · rfl
  · rfl

theorem State.makePlan_planner (s : State) (l : Lane) (sl : Slot) (t : Tag) (k : Nat) (sp : Span) (lead : Nat) :
    (s.makePlan l sl t k sp lead).planner = s.planner := by
  unfold State.makePlan
  dsimp only
  rw [State.arm_planner, State.appendEntry_eq, State.ownTrays_eq]
  rfl

theorem State.suspend_arbiter (s : State) (l : Lane) : (s.suspend l).planner.arbiter = s.planner.arbiter := by
  unfold State.suspend
  split <;> rfl

theorem planParcels_arbiter (l : Lane) : ∀ (rs : List Parcel) (s : State),
    (planParcels rs l s).1.planner.arbiter = s.planner.arbiter
  | [], s => rfl
  | r :: rest, s => by
    rw [planParcels]
    dsimp only
    split
    · exact s.suspend_arbiter l
    split
    · rfl
    split
    · split
      · rfl
      · have h : ∀ sl k, (s.makePlan l sl r.tag k (r.span.getD .one) (s.leadOf l r)).planner.arbiter =
            s.planner.arbiter := fun sl k => congrArg Planner.arbiter (s.makePlan_planner ..)
        split
        · exact (planParcels_arbiter l rest _).trans (h _ _)
        · exact h _ _
    · rfl

/-! ### A plan made stays while younger parcels are planned (R135) -/

/-- The older of two tags in a list of tags. -/
def OlderIn (tags : List Tag) (g h : Tag) : Prop := h ∈ tags ∧ tags.findIdx (· == g) < tags.findIdx (· == h)

/-- A lane whose list has the given tags, not STOPPED, with a plan in a slot. -/
structure Holds (s : State) (l : Lane) (sl : Slot) (p : Plan) (tags : List Tag) : Prop where
  plan : s.plan l sl = some p
  tags : (s.lane l).parcels.map Parcel.tag = tags
  stopped : (s.lane l).state ≠ .stopped

theorem LaneListed.tags {c d : LaneCtl} (h : LaneListed c d) (hs : c.state ≠ .stopped) :
    d.parcels.map Parcel.tag = c.parcels.map Parcel.tag := by
  have e := congrArg (List.map Parcel.tag) (h hs).2
  rw [List.map_map, List.map_map] at e
  exact e

theorem LaneCtl.rank_eq (c : LaneCtl) (g : Tag) : c.rank g = (c.parcels.map Parcel.tag).findIdx (· == g) := by
  rw [List.findIdx_map]
  rfl

theorem State.freeSlot?_none {s : State} {l : Lane} {sl : Slot} (h : s.freeSlot? l = some sl) :
    s.plan l sl = none := by
  unfold State.freeSlot? at h
  split at h
  · rename_i hn
    cases h
    exact Option.isNone_iff_eq_none.1 hn
  · split at h
    · rename_i hn
      cases h
      exact Option.isNone_iff_eq_none.1 hn
    · cases h

/-- A granted claim before its trigger is armed (R128). -/
def State.planned (s : State) (l : Lane) (sl : Slot) (g : Tag) (k : Nat) (sp : Span) (lead : Nat) : State :=
  { s with
    trays := (s.ownTrays { lane := l, tag := g } k sp).trays
    txq := s.txq ++ [{ kind := .claim l, tray := k, span := sp, plan := some { lane := l, tag := g }
                       phase := .waiting, ended := false }]
    line := if s.txq.isEmpty then s.line.newHead else s.line
    plans := s.plans.set l sl (some (s.newPlan g k sp lead))
    lanes := s.lanes.set l ((s.lane l).modParcel g fun r => { r with planSlot := some sl }) }

theorem State.makePlan_eq (s : State) (l : Lane) (sl : Slot) (g : Tag) (k : Nat) (sp : Span) (lead : Nat) :
    s.makePlan l sl g k sp lead = (s.planned l sl g k sp lead).arm l sl (s.newPlan g k sp lead).trigger := by
  unfold State.makePlan
  dsimp only
  rw [State.appendEntry_eq, State.ownTrays_eq]
  rfl

/-- A plan just made whose trigger is reached already is missed (R11, R130). -/
theorem State.takeTrigger_tentative {s : State} {l : Lane} {sl : Slot} {p : Plan} (hp : s.plan l sl = some p)
    (ht : p.state = .tentative) :
    s.takeTrigger l sl = (s.setTrig (s.trig.set l sl none)).endPlan .miss l sl := by
  have hp' : (s.setTrig (s.trig.set l sl none)).plan l sl = some p := hp
  simp only [State.takeTrigger, hp', ht]

/-- A miss of the younger plan leaves the older one. -/
theorem Holds.missYounger {s : State} {l : Lane} {sl sl' : Slot} {p q : Plan} {tags : List Tag}
    (h : Holds s l sl p tags) (hne : sl ≠ sl') (hq : s.plan l sl' = some q) (ho : OlderIn tags p.tag q.tag)
    (hroom : s.txq.length < 8) : (s.endPlan .miss l sl').plan l sl = some p := by
  have hother : sl = otherSlot sl' := by revert hne; cases sl <;> cases sl' <;> decide
  have hmem := h.tags.symm ▸ ho.1
  obtain ⟨r, hr, hrt⟩ := List.mem_map.1 hmem
  obtain ⟨r0, hr0⟩ : ∃ r0, (s.lane l).parcel? q.tag = some r0 :=
    Option.isSome_iff_exists.1 (List.find?_isSome.2 ⟨r, hr, beq_iff_eq.2 hrt⟩)
  have hl : s.laterSlot? l sl' q.tag = none := by
    rw [State.laterSlot?_of_some (hother ▸ h.plan), if_neg]
    rw [LaneCtl.rank_eq, LaneCtl.rank_eq, h.tags]
    exact Nat.not_lt.2 ho.2.le
  rw [State.endPlan_miss_last hq hroom hr0 h.stopped hl, hother]
  exact (congrArg (Four.get · l (otherSlot sl')) (s.missCounted_same l sl' q).1).trans
    ((State.freed_plan_other hroom).trans (hother ▸ h.plan))

/-- A younger parcel's plan, and its miss at once, leave the older parcel's plan. -/
theorem Holds.makePlan {s : State} {l : Lane} {sl sl' : Slot} {p : Plan} {tags : List Tag} (h : Holds s l sl p tags)
    (hs : s.plan l sl' = none) {g : Tag} (ho : OlderIn tags p.tag g) {k : Nat} {sp : Span} {lead : Nat}
    (hg : s.grants k sp = true) : Holds (s.makePlan l sl' g k sp lead) l sl p tags := by
  have hl := s.makePlan_listed l sl' g k sp lead l
  refine ⟨?_, (hl.tags h.stopped).trans h.tags, (hl h.stopped).1⟩
  have hne : sl ≠ sl' := fun e => by
    rw [e] at h
    rw [h.plan] at hs
    cases hs
  have hroom := State.grants_room hg
  have hplan : (s.planned l sl' g k sp lead).plan l sl = some p :=
    (Four.get_set_ne _ _ fun e => hne (Prod.mk.inj e).2).trans h.plan
  have hnew : (s.planned l sl' g k sp lead).plan l sl' = some (s.newPlan g k sp lead) := Four.get_set_self ..
  have hlane : (s.planned l sl' g k sp lead).lane l =
      (s.lane l).modParcel g fun r => { r with planSlot := some sl' } := Two.get_set_self ..
  have htxq : (s.planned l sl' g k sp lead).txq.length < 8 := by
    simp only [State.planned, List.length_append, List.length_singleton]
    omega
  rw [State.makePlan_eq]
  generalize s.planned l sl' g k sp lead = v at hplan hnew hlane htxq
  have htags : (v.lane l).parcels.map Parcel.tag = tags := by
    rw [hlane, ← h.tags]
    exact (LaneListed.modParcel (s.lane l) g (f := fun r => { r with planSlot := some sl' }) (fun _ => rfl)).tags h.stopped
  have hst : (v.lane l).state ≠ .stopped := by
    rw [hlane]
    exact h.stopped
  unfold State.arm
  dsimp only
  split
  · split
    · rw [State.takeTrigger_tentative (by exact hnew) rfl]
      exact Holds.missYounger (p := p) (tags := tags) ⟨hplan, htags, hst⟩ hne hnew ho htxq
    · exact hplan
  · exact hplan

/-- The older parcel's plan stays while the lane plans its younger parcels. -/
theorem Holds.planParcels {l : Lane} {sl : Slot} {p : Plan} {tags : List Tag} : ∀ (rs : List Parcel) {s : State},
    Holds s l sl p tags → (∀ q ∈ rs, OlderIn tags p.tag q.tag) → Holds (planParcels rs l s).1 l sl p tags
  | [], _, h, _ => h
  | r :: rest, s, h, ho => by
    rw [Machine.planParcels]
    dsimp only
    split
    · unfold State.suspend
      split
      · exact h
      · exact ⟨h.plan, h.tags, h.stopped⟩
    split
    · exact h
    split
    · rename_i hg
      split
      · exact h
      · rename_i hs
        have h1 := h.makePlan (State.freeSlot?_none hs) (ho r List.mem_cons_self) (lead := s.leadOf l r) hg
        split
        · exact Holds.planParcels rest h1 fun q hq => ho q (List.mem_cons_of_mem _ hq)
        · exact h1
    · exact h

end Sys2Proof.Machine
end

section
/-! PROOF. The planning event (R121 to R124, R128): the lane served first, its oldest parcel's plan, and the two
moments that raise the event (log 7). -/

open Sys2Proof Sys2Proof.Machine

namespace Sys2Proof.Machine

/-! ### The oldest offered parcel -/

theorem olderIn_of_sublist {tags younger : List Tag} {g h : Tag} (hn : tags.Nodup) (hs : List.Sublist (g :: younger) tags)
    (hh : h ∈ younger) : OlderIn tags g h := by
  obtain ⟨a, b, rfl, hg, hy⟩ := List.cons_sublist_iff.1 hs
  have hb : h ∈ b := hy.subset hh
  have ha : h ∉ a := fun hc => (List.nodup_append.1 hn).2.2 h hc h hb rfl
  refine ⟨List.mem_append_right _ hb, ?_⟩
  have h1 : (a ++ b).findIdx (· == g) < a.length := by
    rw [List.findIdx_append]
    have : a.findIdx (· == g) < a.length := List.findIdx_lt_length_of_exists ⟨g, hg, beq_iff_eq.2 rfl⟩
    rw [if_pos this]
    exact this
  have h2 : a.length ≤ (a ++ b).findIdx (· == h) := by
    rw [List.findIdx_append]
    have : a.findIdx (· == h) = a.length := List.findIdx_eq_length.2 fun x hx =>
      beq_eq_false_iff_ne.2 fun e => ha (e ▸ hx)
    rw [if_neg (by rw [this]; exact lt_irrefl _)]
    exact Nat.le_add_left _ _
  exact h1.trans_le h2

theorem State.offered_state {s : State} {l : Lane} {r : Parcel} (h : r ∈ s.offered l) :
    (s.lane l).state ≠ .stopped := by
  unfold State.offered at h
  split at h
  · rename_i hc
    intro hs
    simp [hs] at hc
  · cases h

theorem State.offered_sublist (s : State) (l : Lane) : List.Sublist (s.offered l) (s.lane l).parcels := by
  unfold State.offered
  split
  · exact List.filter_sublist
  · exact List.nil_sublist _

/-- What the claim of a lane's oldest offered parcel needs to be granted and its trigger to lie ahead. -/
structure Grantable (s : State) (l : Lane) (r : Parcel) (k : Nat) (sl : Slot) : Prop where
  fits : s.leadOf l r + s.cfgG ≤ s.cfgH
  aim : s.searchAim l (s.leadOf l r) (r.span.getD .one) = some k
  grants : s.grants k (r.span.getD .one) = true
  slot : s.freeSlot? l = some sl
  ahead : s.alreadyReached (s.fd (s.leadOf l r) (s.aimOf k (r.span.getD .one))) = false
  tags : ((s.lane l).parcels.map Parcel.tag).Nodup

section
variable {s : State} {l : Lane} {r : Parcel} {younger : List Parcel} {k : Nat} {sl : Slot}

theorem outOfRange_false (h : s.leadOf l r + s.cfgG ≤ s.cfgH) : s.outOfRange (s.leadOf l r) = false :=
  decide_eq_false (Nat.not_lt.2 h)

theorem planParcels_granted (hk : s.locked = true) (h : Grantable s l r k sl) :
    planParcels (r :: younger) l s =
      planParcels younger l (s.makePlan l sl r.tag k (r.span.getD .one) (s.leadOf l r)) := by
  rw [planParcels]
  dsimp only
  rw [outOfRange_false h.fits, if_neg Bool.false_ne_true, h.aim]
  dsimp only
  rw [if_pos h.grants, h.slot]
  dsimp only
  rw [if_pos]
  rw [State.makePlan_of_ahead hk h.ahead]
  exact congrArg Option.isSome (Four.get_set_self s.plans l sl _)

theorem planParcels_refused (hf : s.leadOf l r + s.cfgG ≤ s.cfgH)
    (ha : s.searchAim l (s.leadOf l r) (r.span.getD .one) = some k) (hg : s.grants k (r.span.getD .one) = false) :
    planParcels (r :: younger) l s = (s, true) := by
  rw [planParcels]
  dsimp only
  rw [outOfRange_false hf, if_neg Bool.false_ne_true, ha]
  dsimp only
  rw [if_neg (by rw [hg]; exact Bool.false_ne_true)]

theorem planParcels_noAim (hf : s.leadOf l r + s.cfgG ≤ s.cfgH)
    (ha : s.searchAim l (s.leadOf l r) (r.span.getD .one) = none) :
    planParcels (r :: younger) l s = (s, false) := by
  rw [planParcels]
  dsimp only
  rw [outOfRange_false hf, if_neg Bool.false_ne_true, ha]

/-- R124, R128: the oldest offered parcel gets its plan, which stays through the rest of the lane's planning. -/
theorem planParcels_plan (hk : s.locked = true) (ho : s.offered l = r :: younger) (h : Grantable s l r k sl) :
    (planParcels (r :: younger) l s).1.plan l sl =
      some (s.newPlan r.tag k (r.span.getD .one) (s.leadOf l r)) := by
  have hst : (s.lane l).state ≠ .stopped := State.offered_state (r := r) (by rw [ho]; exact List.mem_cons_self)
  have hsub : List.Sublist ((r :: younger).map Parcel.tag) ((s.lane l).parcels.map Parcel.tag) :=
    (ho ▸ s.offered_sublist l).map Parcel.tag
  have hl := s.makePlan_listed l sl r.tag k (r.span.getD .one) (s.leadOf l r) l
  have hh : Holds (s.makePlan l sl r.tag k (r.span.getD .one) (s.leadOf l r)) l sl
      (s.newPlan r.tag k (r.span.getD .one) (s.leadOf l r)) ((s.lane l).parcels.map Parcel.tag) := by
    refine ⟨?_, hl.tags hst, (hl hst).1⟩
    rw [State.makePlan_of_ahead hk h.ahead]
    exact Four.get_set_self ..
  rw [planParcels_granted hk h]
  refine (hh.planParcels younger fun q hq => ?_).plan
  exact olderIn_of_sublist h.tags hsub (List.mem_map_of_mem hq)

end

/-! ### The lane served first (R123) -/

/-- The lane that goes first where both take part. -/
structure GoesFirst (s : State) (l : Lane) : Prop where
  part : s.takesPart l = true
  other : s.takesPart (otherLane l) = true → s.arbitrate = l

theorem State.arbitrate_of {s : State} {l : Lane}
    (h : let d := (s.firstHold l - s.firstHold (otherLane l)).toInt
      (d < 0 ∧ d ≠ -2147483648) ∨ (d = 0 ∧ s.planner.arbiter = otherLane l)) : s.arbitrate = l := by
  cases l with
  | l0 =>
    have h' : (s.firstHold .l0 - s.firstHold .l1).toInt < 0 ∨
        ((s.firstHold .l0 - s.firstHold .l1).toInt = 0 ∧ s.planner.arbiter = .l1) := h.imp And.left id
    unfold State.arbitrate
    dsimp only
    rcases h' with h | ⟨h, ha⟩
    · rw [if_pos h]
    · rw [h, if_neg (lt_irrefl _), if_neg (lt_irrefl _), ha]
      rfl
  | l1 =>
    have h' : ((s.firstHold .l1 - s.firstHold .l0).toInt < 0 ∧ (s.firstHold .l1 - s.firstHold .l0).toInt ≠ -2147483648) ∨
        ((s.firstHold .l1 - s.firstHold .l0).toInt = 0 ∧ s.planner.arbiter = .l0) := h
    have hneg : s.firstHold .l0 - s.firstHold .l1 = -(s.firstHold .l1 - s.firstHold .l0) := by
      rw [BitVec.neg_sub, BitVec.sub_eq_add_neg, BitVec.add_comm]
    have hd : (s.firstHold .l0 - s.firstHold .l1).toInt = -(s.firstHold .l1 - s.firstHold .l0).toInt := by
      rw [hneg]
      refine BitVec.toInt_neg_of_ne_intMin fun e => ?_
      rcases h' with ⟨-, hn⟩ | ⟨hz, -⟩
      · exact hn (by rw [e]; decide)
      · rw [e] at hz
        exact absurd hz (by decide)
    unfold State.arbitrate
    dsimp only
    rw [hd]
    rcases h' with ⟨h, -⟩ | ⟨h, ha⟩
    · rw [if_neg (by omega), if_pos (by omega)]
    · rw [h, if_neg (by omega), if_neg (by omega), ha]
      rfl

/-- The state in which the first lane plans: the record names it where both take part. -/
def State.arbitered (s : State) (l : Lane) : State :=
  if s.takesPart (otherLane l) then s.modPlanner fun p => { p with arbiter := l } else s

/-- One planning event, by the lane that goes first. -/
theorem State.planningEvent_first {s : State} {l : Lane} (hm : s.mayPlan = true) (hf : GoesFirst s l) :
    s.planningEvent = if s.takesPart (otherLane l) && !(planParcels (s.offered l) l (s.arbitered l)).2 then
        (planParcels ((planParcels (s.offered l) l (s.arbitered l)).1.offered (otherLane l)) (otherLane l)
          (planParcels (s.offered l) l (s.arbitered l)).1).1
      else (planParcels (s.offered l) l (s.arbitered l)).1 := by
  have hp := hf.part
  unfold State.planningEvent State.arbitered
  rw [if_pos hm]
  cases hot : s.takesPart (otherLane l) with
  | false =>
    cases l with
    | l0 =>
      have h1 : s.takesPart .l1 = false := hot
      simp [hp, h1]
    | l1 =>
      have h0 : s.takesPart .l0 = false := hot
      simp [hp, h0]
  | true =>
    have ha := hf.other hot
    have hb : s.takesPart .l0 = true ∧ s.takesPart .l1 = true := by
      cases l with
      | l0 => exact ⟨hp, hot⟩
      | l1 => exact ⟨hot, hp⟩
    rw [hb.1, hb.2]
    dsimp only
    rw [ha]
    generalize hx : planParcels (s.offered l) l (s.modPlanner fun p => { p with arbiter := l }) = x
    simp only [if_true, hx]
    cases x.2 <;> rfl

/-! ### Planning at the end of an event (log 7) -/

theorem State.startTransfers_self {s : State} (h : ∀ l, s.NoTransfer l) : s.startTransfers = s := by
  have h0 : s.startTransfer .l0 = s := by
    simp only [State.startTransfer, (s.noTransfer_iff .l0).1 (h .l0)]
  have h1 : s.startTransfer .l1 = s := by
    simp only [State.startTransfer, (s.noTransfer_iff .l1).1 (h .l1)]
  rw [State.startTransfers, h0, h1]

/-- An event that raises a planning event, and in which no transfer begins, ends with that planning event. -/
theorem State.settle_plans {u before : State} (h : ∀ l, u.NoTransfer l) (hs : u.table.station ≠ .leaving) :
    EventEnd u.planningEvent (u.settle before true false) := by
  have e : u.settle before true false = u.planningEvent.finish before false := by
    unfold State.settle
    rw [State.startTransfers_self h]
    simp
  have ht : u.planningEvent.updateFeeds.table = u.table := by
    rw [State.updateFeeds_eq]
    exact u.planningEvent_planWork.table
  rw [e]
  exact State.finish_eventEnd _ _ _ (.inr (by simp [State.leavingDone, ht, hs]))

theorem State.candidatesFrom_planner (s : State) (q : Planner) (off : Nat) : ∀ n d,
    ({ s with planner := q } : State).candidatesFrom off n d = s.candidatesFrom off n d
  | 0, _ => rfl
  | n + 1, d => by
    unfold State.candidatesFrom
    rw [State.candidatesFrom_planner s q off n]
    rfl

/-- The aim search does not read the arbiter record. -/
theorem State.searchAim_planner (s : State) (q : Planner) (l : Lane) (lead : Nat) (sp : Span) :
    ({ s with planner := q } : State).searchAim l lead sp = s.searchAim l lead sp := by
  unfold State.searchAim State.candidates
  rw [State.candidatesFrom_planner]
  rfl

/-- R90: the parcel that comes to the hold place leaves the launch place taken. -/
theorem State.toHolding_launchTaken {s : State} {l : Lane} {r : Parcel} (hl : (s.lane l).launchTaken = true)
    (hr : (s.lane l).at? .queued = some r) (hn : ((s.lane l).parcels.map Parcel.tag).Nodup) :
    ((s.toHolding l r).lane l).launchTaken = true := by
  obtain ⟨x, hx, hp⟩ := List.any_eq_true.1 hl
  have hq : r.place = .queued := by simpa using List.find?_some hr
  have hne : x.tag ≠ r.tag := fun e => by
    have := List.inj_on_of_nodup_map hn hx (List.mem_of_find?_eq_some hr) e
    rw [this, hq] at hp
    exact absurd hp (by decide)
  have hlane : (s.toHolding l r).lane l = _ := State.modLane_lane_self ..
  rw [hlane]
  exact List.any_eq_true.2 ⟨x, List.mem_map.2 ⟨x, hx, if_neg hne⟩, hp⟩

theorem State.arrival_idle {s : State} {k : Nat} {r : TrayRec} (hr : s.tray? k = some r)
    (hc : r.cond = .own ∨ r.cond = .defective ∨ r.cond = .learning) : s.arrival k = s := by
  rcases hc with e | e | e <;> simp [State.arrival, hr, e]

/-- Settles O25: the lane that goes first plans its oldest parcel, then the other; the two moments raise the
event at their ends. -/
theorem planningEventServesLanes : Obligations.PlanningEventServesLanes := by
  unfold Obligations.PlanningEventServesLanes
  intro s first arbiter leadFits aim grantable made plans
  have hmay : plans → s.mayPlan = true := fun ⟨h1, h2, h3⟩ => by
    simp [State.mayPlan, State.online, h1, s.locked_iff.2 h2, h3]
  have hfirst : ∀ l, first l → GoesFirst s l := fun l h => ⟨h.1, fun ho => State.arbitrate_of (h.2 ho)⟩
  have harb : ∀ l, s.arbitered l = { s with planner := { s.planner with arbiter := arbiter l } } := fun l => by
    unfold State.arbitered
    split
    · rename_i h
      have : arbiter l = l := if_pos h
      rw [this]
      rfl
    · rename_i h
      have : arbiter l = s.planner.arbiter := if_neg h
      rw [this]
  have hgr : ∀ l r k sl u, u = { s with planner := u.planner } → grantable l r k sl → Grantable u l r k sl :=
    fun l r k sl u hu ⟨h1, h2, h3, h4, h5, h6⟩ => by
      rw [hu]
      exact ⟨h1, (s.searchAim_planner ..).trans h2, h3, h4, h5, h6⟩
  refine ⟨fun hn => ?_, fun l r younger k sl hp hf ho hg => ?_, fun l r younger k hp hf ho hl ha hg => ?_,
    fun l r younger hp hf ho hl ha => ?_, fun c u hr hrest hon h => ?_⟩
  · have hm : s.mayPlan = false := by
      refine Bool.eq_false_iff.2 fun hm => hn ?_
      simp only [State.mayPlan, State.online, Bool.and_eq_true, beq_iff_eq, decide_eq_true_eq] at hm
      obtain ⟨⟨h1, h2⟩, h3⟩ := hm
      exact ⟨h1, s.locked_iff.1 h2, h3⟩
    simp [State.planningEvent, hm]
  · have hpe := State.planningEvent_first (hmay hp) (hfirst l hf)
    have hk : (s.arbitered l).locked = true := by
      rw [harb]
      exact s.locked_iff.2 hp.2.1
    have hau : s.arbitered l = { s with planner := (s.arbitered l).planner } := by rw [harb]
    have hG := hgr l r k sl _ hau hg
    have hoff : (s.arbitered l).offered l = r :: younger := by rw [harb]; exact ho
    have hplan := planParcels_plan hk hoff hG
    have hmade : (s.arbitered l).newPlan r.tag k (r.span.getD .one) ((s.arbitered l).leadOf l r) = made l r k := by
      rw [harb]
      rfl
    have hparb := planParcels_arbiter l (r :: younger) (s.arbitered l)
    have harb' : (s.arbitered l).planner.arbiter = arbiter l := by rw [harb]
    rw [hmade] at hplan
    rw [harb'] at hparb
    rw [ho] at hpe
    refine ⟨?_, ?_, fun hy ho' => ?_⟩
    · rw [hpe]
      split
      · have hne : l ≠ otherLane l := by cases l <;> decide
        exact ((planParcels_untouched hne _ _).2 sl).trans hplan
      · exact hplan
    · rw [hpe]
      split
      · exact (planParcels_arbiter ..).trans hparb
      · exact hparb
    · have hs : s.arbitered l = s := if_neg (by rw [ho']; exact Bool.false_ne_true)
      rw [hs] at hpe hk hG
      rw [hpe, ho', Bool.false_and, if_neg Bool.false_ne_true, planParcels_granted hk hG, hy]
      rfl
  · have hpe := State.planningEvent_first (hmay hp) (hfirst l hf)
    have href : planParcels (r :: younger) l (s.arbitered l) = (s.arbitered l, true) := by
      refine planParcels_refused (k := k) ?_ ?_ ?_ <;> rw [harb]
      · exact hl
      · exact (s.searchAim_planner ..).trans ha
      · exact hg
    rw [hpe, ho, href, Bool.not_true, Bool.and_false, if_neg Bool.false_ne_true, harb]
  · have hpe := State.planningEvent_first (hmay hp) (hfirst l hf)
    have href : planParcels (r :: younger) l (s.arbitered l) = (s.arbitered l, false) := by
      refine planParcels_noAim ?_ ?_ <;> rw [harb]
      · exact hl
      · exact (s.searchAim_planner ..).trans ha
    rw [ho, href] at hpe
    refine ⟨fun ho' => ?_, fun q others k sl hpart hoff hg => ?_⟩
    · have hs : s.arbitered l = s := if_neg (by rw [ho']; exact Bool.false_ne_true)
      rw [hpe, ho', Bool.false_and, if_neg Bool.false_ne_true, hs]
    · rw [hpart, Bool.not_false, Bool.and_self, if_pos rfl] at hpe
      have hk : (s.arbitered l).locked = true := by
        rw [harb]
        exact s.locked_iff.2 hp.2.1
      have hau : s.arbitered l = { s with planner := (s.arbitered l).planner } := by rw [harb]
      have hG := hgr (otherLane l) q k sl _ hau hg
      have hoff' : (s.arbitered l).offered (otherLane l) = q :: others := by rw [harb]; exact hoff
      have hplan := planParcels_plan hk hoff' hG
      have hmade : (s.arbitered l).newPlan q.tag k (q.span.getD .one) ((s.arbitered l).leadOf (otherLane l) q) =
          made (otherLane l) q k := by
        rw [harb]
        rfl
      have hla : arbiter l = l := if_pos hpart
      have harb' : (s.arbitered l).planner.arbiter = l := by rw [harb]; exact hla
      dsimp only at hpe
      rw [hoff'] at hpe
      rw [hpe]
      exact ⟨hplan.trans (congrArg some hmade), (planParcels_arbiter ..).trans harb'⟩
  · have hfields : ∀ t, EventEnd u.planningEvent t → t.plans = u.planningEvent.plans ∧
        t.trig = u.planningEvent.trig ∧ t.trays = u.planningEvent.trays ∧ t.txq = u.planningEvent.txq ∧
        t.planner = u.planningEvent.planner ∧ t.rep = u.planningEvent.rep :=
      fun t e => ⟨e.plans, e.trig, e.trays, e.txq, e.planner, e.rep⟩
    rcases h with ⟨k, r, chk, lvl, rfl, hq, hev, hk, hc, hu⟩ | ⟨l, r, rfl, hf, hlt, hat, hnd, hu⟩
    · have hx := exec_reachesQuietly hq chk lvl
      have hn := (s.reachesQuietly_iff.1 hq).1
      have hev' : (s.advanced chk lvl).trayEventsAt s.nextS = [.arrival k] := hev
      have hid : (s.advanced chk lvl).trayEvent (.arrival k) = s.advanced chk lvl :=
        State.arrival_idle (s := s.advanced chk lvl) hk hc
      have hca : s.countArrives true = true := by
        have ha : (s.arrivalAt s.nextS).isSome = true := by
          cases ha : s.arrivalAt s.nextS with
          | some _ => rfl
          | none =>
            have hm : TrayEvent.arrival k ∈ s.trayEventsAt s.nextS := by rw [hev]; exact List.mem_cons_self
            simp [State.trayEventsAt, ha] at hm
        simp [State.countArrives, hn.locked, hn.backlog, ha]
      have hue : (s.advanced chk lvl).countDoubt = u := hu.symm
      rw [State.trayEvents_one hev', hid, hca, hue] at hx
      have hl : u.lanes = s.lanes := by rw [hu]
      have ht : u.table = s.table := by rw [hu]
      exact ⟨_, hx, hfields _ (State.settle_plans (fun l => (State.noTransfer_of_atRest hrest l).of_eq
        (by unfold State.online; rw [ht]) (by unfold State.lane; rw [hl]) (by unfold State.lane; rw [hl])) (by rw [ht, hon]; nofun))⟩
    · have hx := exec_holdEyeBlocked (l := l) hr
      rw [if_pos hf, hat] at hx
      dsimp only at hx
      rw [← hu] at hx
      have ht : u.table = s.table := by rw [hu]; rfl
      have hun : ∀ m, m ≠ l → u.lane m = s.lane m := fun m hm => by rw [hu]; exact State.modLane_lane_ne _ _ hm
      have hnt : ∀ m, u.NoTransfer m := fun m => by
        by_cases hm : m = l
        · subst hm
          exact State.noTransfer_of_launchTaken (hu ▸ State.toHolding_launchTaken hlt hat hnd)
        · exact (State.noTransfer_of_atRest hrest m).of_eq (by unfold State.online; rw [ht])
            (congrArg LaneCtl.state (hun m hm)) (congrArg LaneCtl.parcels (hun m hm))
      exact ⟨_, hx, hfields _ (State.settle_plans hnt (by rw [ht, hon]; nofun))⟩

end Sys2Proof.Machine
end

section
/-! SUPPORT. The only plan of a lane ends as its record changes (R32, R33, R134): its slot, its frames in the queue,
its other record, and its lane. -/

open Sys2Proof Sys2Proof.Machine

namespace Sys2Proof.Machine

/-! ### The only plan of a lane, named by a record -/

/-- The plan a reference names, in its slot, the only one of its lane. -/
structure OwnPlan (s : State) (ref : PlanRef) (sl : Slot) (p : Plan) : Prop where
  slot : s.slotOf? ref.lane ref.tag = some sl
  plan : s.plan ref.lane sl = some p
  alone : s.plan ref.lane (otherSlot sl) = none

theorem OwnPlan.congr {s t : State} {ref : PlanRef} {sl : Slot} {p : Plan} (h : OwnPlan s ref sl p)
    (e : t.plans = s.plans) : OwnPlan t ref sl p where
  slot := (State.slotOf?_congr e ref.lane ref.tag).trans h.slot
  plan := (congrArg (Four.get · ref.lane sl) e).trans h.plan
  alone := (congrArg (Four.get · ref.lane (otherSlot sl)) e).trans h.alone

theorem OwnPlan.planStateOf? {s : State} {ref : PlanRef} {sl : Slot} {p : Plan} (h : OwnPlan s ref sl p) {r : TrayRec}
    (hr : r.plan = some ref) : s.planStateOf? r = some p.state := by
  simp only [State.planStateOf?, hr, State.planOf?, h.slot, h.plan, Option.map_some]

/-- What the ending of a lane's only plan, no miss, leaves where the queue has room. -/
structure SoleEnded (s t : State) (ref : PlanRef) (sl : Slot) (p : Plan) : Prop where
  plan : t.plan ref.lane sl = none
  trig : t.trig.get ref.lane sl = none
  lanes : ∀ l, LaneUnplanned (s.lane l) (t.lane l)
  rep : t.rep = s.rep
  released : p.state ≠ .tentative → t.txq = s.txq ++ [plainEntry .release p.target p.span]
  claim : ∀ older e younger, p.state = .tentative → s.txq = older ++ e :: younger → e.kind.isClaim = true →
    e.plan = some ref → e.phase = .waiting → e.ended = false → (∀ q ∈ older, q.plan ≠ some ref) →
    t.txq = older ++ younger
  noClaim : p.state = .tentative → (∀ q ∈ s.txq, q.plan ≠ some ref) → t.txq = s.txq
  own : ∀ j ∈ s.namedTrays p.target p.span, ∀ q, s.tray? j = some q → q.cond = .own → q.plan = some ref →
    t.tray? j = some { cond := .opened, seen := q.seen, holder := none, partner := none, plan := none }
  others : PlanEnds s t
  work : PlanWork s t

theorem endRef_soleEnded {s : State} {ref : PlanRef} {sl : Slot} {p : Plan} {e : PlanEnding} (h : OwnPlan s ref sl p)
    (hne : e ≠ .miss)
    (hq : p.state ≠ .tentative → s.line.enabled = true ∧ s.hasTwin (plainEntry .release p.target p.span) = false ∧
      s.txq.length < 8) : SoleEnded s (s.endRef e ref) ref sl p := by
  have href := State.slotOf?_tag h.slot h.plan
  have he : s.endRef e ref = s.endPlan e ref.lane sl := State.endRef_of_slot h.slot e
  obtain ⟨htx, -, hrep⟩ := s.unplan_txq ref.lane sl p
  have hten : p.state = .tentative → s.endPlan e ref.lane sl = (s.unplan ref.lane sl p).withdrawClaim ref := fun ht => by
    have := State.endPlan_tentative (e := e) h.plan h.alone ht
    rw [State.countMiss_of_ne hne, ← href] at this
    exact this
  have hrel : p.state ≠ .tentative → s.endPlan e ref.lane sl =
      (s.unplan ref.lane sl p).appendEntry (plainEntry .release p.target p.span) := fun ht => by
    obtain ⟨h1, h2, h3⟩ := hq ht
    have := State.endPlan_placed (e := e) h.plan h.alone ht h1 h2 h3
    rw [State.countMiss_of_ne hne] at this
    exact this
  rw [he]
  refine ⟨State.endPlan_plan .., (State.endPlan_from_unplan h.plan).trig_none (s.unplan_plan ref.lane sl p).2.1,
    laneUnplanned_workRel.endPlan s hne ref.lane sl, ?_, fun ht => ?_, fun older q younger ht hs hk hp hw hee hold => ?_,
    fun ht hn => ?_, fun j hj q hqj ho hp => ?_, planEnds_workRel.endPlan s trivial ref.lane sl,
    s.endPlan_planWork e ref.lane sl⟩
  · by_cases ht : p.state = .tentative
    · rw [hten ht, State.withdrawClaim_eq]
      exact hrep
    · rw [hrel ht, State.appendEntry_eq]
      exact hrep
  · rw [hrel ht, State.appendEntry_eq, htx]
  · rw [hten ht]
    exact State.withdrawClaim_txq (htx.trans hs) hk hp hw hee hold
  · rw [hten ht, State.withdrawClaim_of_none (by rw [htx]; exact hn), htx]
  · exact State.endPlan_record h.plan hj hqj ho (hp.trans (congrArg some href))

/-- A record changed before the ending, and the plan's other record after it. -/
theorem SoleEnded.tray_self {s t : State} {ref : PlanRef} {sl : Slot} {p : Plan} (h : SoleEnded s t ref sl p) {k : Nat}
    {q : TrayRec} (hk : s.tray? k = some q) (ho : q.cond ≠ .own) (hp : q.partner = none) : t.tray? k = some q := by
  obtain ⟨q', hq', kept⟩ := h.others.records k q hk ho
  rw [hq', kept.eq_of_alone hp]

/-- R32: the plan's other record is OPEN after its tray `k` has taken another condition. -/
theorem SoleEnded.tray_other {a s t : State} {ref : PlanRef} {sl : Slot} {p : Plan} (h : SoleEnded s t ref sl p)
    {k : Nat} {r : TrayRec} {c : Cond} {seen : Seen} {holder : Option Nat} (hk : a.tray? k = some r)
    (hs : s.trays = (a.recond k c seen holder).trays) (ht : s.table = a.table) {j : Nat}
    (hj : j ∈ a.namedTrays p.target p.span) (hjk : j ≠ k) {q : TrayRec} (hq : a.tray? j = some q) (ho : q.cond = .own)
    (hp : q.plan = some ref) :
    t.tray? j = some { cond := .opened, seen := q.seen, holder := none, partner := none, plan := none } := by
  obtain ⟨q', hq', e⟩ := State.recond_trayRec_kept hk hq hjk c seen holder
  have hs' : s.tray? j = some q' := (congrArg (·[j]?) hs).trans hq'
  have hj' : j ∈ s.namedTrays p.target p.span := by
    rw [State.namedTrays_congr ht]
    exact hj
  have hx : q'.cond = q.cond ∧ q'.plan = q.plan ∧ q'.seen = q.seen := by
    rcases e with e | e <;> rw [e] <;> exact ⟨rfl, rfl, rfl⟩
  have := h.own j hj' q' hs' (hx.1.trans ho) (hx.2.1.trans hp)
  rw [hx.2.2] at this
  exact this

theorem SoleEnded.misses {s t u : State} {ref : PlanRef} {sl : Slot} {p : Plan} (h : SoleEnded s t ref sl p) {l : Lane}
    (e : LaneMoved (t.lane l) (u.lane l)) :
    (u.lane l).parcels.map Parcel.misses = (s.lane l).parcels.map Parcel.misses :=
  (e.map_eq Parcel.misses fun _ => rfl).trans ((h.lanes l).map_eq Parcel.misses fun _ => rfl)

theorem LaneUnplanned.launch {c d : LaneCtl} (h : LaneUnplanned c d) : d.launch = c.launch := by
  obtain ⟨f, rfl, -⟩ := h
  rfl

/-! ### The event of one tray event -/

/-- A count that reaches a position with one tray event, where nothing is planned anew. -/
theorem exec_trayEvent_unplanned {s : State} {e : TrayEvent} (chk lvl : Bool) (hq : s.reachesQuietly = true)
    (he : s.trayEventsAt s.nextS = [e]) (ho : s.table.station = .online) (hm : s.mayPlan = false) :
    ∃ t, exec (.encoderCount true chk lvl) s = .next t ∧ EventEnd ((s.advanced chk lvl).trayEvent e).countDoubt t := by
  have w := (s.advanced chk lvl).trayEvent_planWork e
  generalize hv : (s.advanced chk lvl).trayEvent e = v at w
  have hmv : v.countDoubt.mayPlan = false := by
    have h : v.countDoubt.mayPlan = (s.advanced chk lvl).mayPlan := State.mayPlan_congr w.loop w.table
    exact h.trans hm
  exact exec_trayEvent hq he ho hv w.table (.inr (.inl hmv))

end Sys2Proof.Machine
end

section
/-! PROOF. The check event of a tray this station has claimed (R23, R25 to R27). -/

open Sys2Proof Sys2Proof.Machine

namespace Sys2Proof.Machine

/-! ### The plan ends with its own frame placed before its RELEASE -/

/-- What the check event of an OWN record that ends its plan leaves of the plan (R32, R33, R134). -/
structure OwnEnded (s t : State) (ref : PlanRef) (sl : Slot) (p : Plan) (k : Nat) (own : TxEntry) : Prop where
  plan : t.plan ref.lane sl = none
  trig : t.trig.get ref.lane sl = none
  misses : (t.lane ref.lane).parcels.map Parcel.misses = (s.lane ref.lane).parcels.map Parcel.misses
  other : ∀ j ∈ s.namedTrays p.target p.span, j ≠ k → ∀ q, s.tray? j = some q → q.cond = .own → q.plan = some ref →
    t.tray? j = some { cond := .opened, seen := q.seen, holder := none, partner := none, plan := none }
  released : p.state ≠ .tentative → t.txq = s.txq ++ [own, plainEntry .release p.target p.span]
  claim : ∀ older e younger, p.state = .tentative → s.txq = older ++ e :: younger → e.kind.isClaim = true →
    e.plan = some ref → e.phase = .waiting → e.ended = false → (∀ q ∈ older, q.plan ≠ some ref) →
    t.txq = older ++ younger ++ [own]

/-- The state in which the plan ends: tray `k` changed, the own frame at the tail of the queue. -/
structure OwnPlaced (s x : State) (ref : PlanRef) (k : Nat) (c : Cond) (seen : Seen) (own : TxEntry) : Prop where
  plans : x.plans = s.plans
  table : x.table = s.table
  txq : x.txq = s.txq ++ [own]
  enabled : x.line.enabled = s.line.enabled
  trays : x.trays = (s.recond k c seen none).trays
  misses : (x.lane ref.lane).parcels.map Parcel.misses = (s.lane ref.lane).parcels.map Parcel.misses

section
variable {s x : State} {ref : PlanRef} {sl : Slot} {p : Plan} {k : Nat} {c : Cond} {seen : Seen} {own : TxEntry}
  {r : TrayRec}

theorem OwnPlaced.soleEnded (h : OwnPlaced s x ref k c seen own) (hp : OwnPlan s ref sl p) {e : PlanEnding}
    (hne : e ≠ .miss) (hen : s.line.enabled = true) (hlen : s.txq.length + 2 ≤ 8)
    (htw : s.hasTwin (plainEntry .release p.target p.span) = false) (hown : own.kind.sameKind .release = false) :
    SoleEnded x (x.endRef e ref) ref sl p := by
  refine endRef_soleEnded (hp.congr h.plans) hne fun _ => ⟨h.enabled.trans hen, ?_, ?_⟩
  · have ht : x.hasTwin (plainEntry .release p.target p.span) =
        (s.hasTwin (plainEntry .release p.target p.span) || (own.kind.sameKind .release && own.tray == p.target)) := by
      rw [State.hasTwin, h.txq, List.any_append]
      simp only [State.hasTwin, List.any_cons, List.any_nil, Bool.or_false, plainEntry]
    rw [ht, htw, hown]
    rfl
  · rw [h.txq, List.length_append, List.length_singleton]
    omega

theorem OwnPlaced.ended (h : OwnPlaced s x ref k c seen own) (hr : s.tray? k = some r) {y z t : State}
    (he : SoleEnded x y ref sl p) (hz : z = { y with rep := z.rep }) (e : EventEnd z.countDoubt t) :
    OwnEnded s t ref sl p k own := by
  have hzp : z.plans = y.plans := by rw [hz]
  have hzt : z.trig = y.trig := by rw [hz]
  have hzl : ∀ l, z.lane l = y.lane l := fun l => by rw [hz]; rfl
  have hzr : ∀ j, z.tray? j = y.tray? j := fun j => by rw [hz]; rfl
  have hzq : z.txq = y.txq := by rw [hz]
  refine ⟨(e.plan ref.lane sl).trans ((congrArg (Four.get · ref.lane sl) hzp).trans he.plan),
    (congrArg (Four.get · ref.lane sl) (e.trig.trans hzt)).trans he.trig, ?_, fun j hj hjk q hqj ho hq => ?_, fun ht => ?_,
    fun older q younger ht hs hk hp hw hee hold => ?_⟩
  · have hm := he.misses (u := t) (l := ref.lane) (by rw [← hzl]; exact e.lanes ref.lane)
    exact hm.trans h.misses
  · exact (e.tray j).trans ((hzr j).trans (he.tray_other hr h.trays h.table hj hjk hqj ho hq))
  · rw [e.txq]
    refine hzq.trans ((he.released ht).trans ?_)
    rw [h.txq, List.append_assoc]
    rfl
  · rw [e.txq]
    refine hzq.trans ((he.claim older q (younger ++ [own]) ht ?_ hk hp hw hee hold).trans ?_)
    · rw [h.txq, hs, List.append_assoc, List.cons_append]
    · rw [List.append_assoc]

theorem OwnPlaced.tray (h : OwnPlaced s x ref k c seen own) (hr : s.tray? k = some r) (hc : c ≠ .own) {y : State}
    (he : SoleEnded x y ref sl p) :
    y.tray? k = some { cond := c, seen := seen, holder := none, partner := none, plan := none } :=
  he.tray_self ((congrArg (·[k]?) h.trays).trans (State.recond_trayRec_self hr c seen none)) hc rfl

/-- The own frame placed with room, the lanes as they are. -/
theorem ownPlaced_append (ref : PlanRef) {kind : FrameKind} (hen : s.line.enabled = true)
    (hlen : s.txq.length < 8) (htw : s.hasTwin (plainEntry kind k .one) = false) :
    OwnPlaced s ((s.recond k c seen none).placeFrame kind k .one) ref k c seen (plainEntry kind k .one) ∧
      ((s.recond k c seen none).placeFrame kind k .one).rep = s.rep ∧
      ((s.recond k c seen none).placeFrame kind k .one).lanes = s.lanes := by
  rw [State.recond_placed rfl rfl hen htw hlen]
  have e := s.recond_eq k c seen none
  generalize hu : s.recond k c seen none = u at e
  rw [State.appendEntry_eq]
  have he : u.line = s.line := by rw [e]
  refine ⟨⟨?_, ?_, ?_, ?_, ?_, ?_⟩, ?_, ?_⟩
  · rw [e]
  · rw [e]
  · rw [e]
  · dsimp only
    rw [he]
    split <;> rfl
  · rw [hu]
  · rw [State.lane, e]
    rfl
  · rw [e]
  · rw [e]

end

/-! ### The check event by its sample -/

section
variable {s : State} {k : Nat} {r : TrayRec} {ref : PlanRef} {sl : Slot} {p : Plan}

theorem State.endPlanOf_eq (s : State) (hr : r.plan = some ref) (e : PlanEnding) : s.endPlanOf e r = s.endRef e ref := by
  simp only [State.endPlanOf, hr]

/-- R23: not level, of an OWN record. -/
theorem State.checkAs_tilted (hc : r.cond = .own) (hp : OwnPlan s ref sl p) (hr : r.plan = some ref) (chk : Bool) :
    s.checkAs k r chk false =
      if p.state = .launched then
        ((((s.recond k .defective (sampleSeen s.pins.chk) none).placeFrame .defect k .one).queueReport
          (.defect k .own)).endRef .abandon ref).queueReport (.mismatch k .tiltedTarget)
      else (((s.recond k .defective (sampleSeen s.pins.chk) none).placeFrame .defect k .one).queueReport
          (.defect k .own)).endRef .abandon ref := by
  have hps := hp.planStateOf? hr
  rw [State.checkAs, if_neg Bool.false_ne_true, State.checkNotLevel, if_neg (by rw [hc]; nofun)]
  dsimp only
  rw [if_pos hc, State.endPlanOf_eq _ hr, hps]
  simp only [Option.some.injEq]

/-- R25: occupied, of an unlaunched plan. -/
theorem State.checkAs_unlaunched (hc : r.cond = .own) (hp : OwnPlan s ref sl p) (hr : r.plan = some ref)
    (hn : p.state ≠ .launched) :
    s.checkAs k r true true =
      ((s.recond k .stray .occupied none).placeFrame .occupied k .one).endRef .abandon ref := by
  have hps := hp.planStateOf? hr
  simp only [State.checkAs, if_true, State.checkOccupied, hc]
  rw [if_neg (by rw [hps, Option.some.injEq]; exact hn), State.endPlanOf_eq _ hr]

theorem State.mergeSeenOf_eq (s : State) (hr : r.plan = some ref) {e : Launch} (he : (s.lane ref.lane).launch = some e) :
    s.mergeSeenOf r = e.mergeSeen := by
  simp only [State.mergeSeenOf, hr, he]

/-- R26: occupied, of a LAUNCHED plan not seen at the merge eye. -/
theorem State.checkAs_abort (hc : r.cond = .own) (hp : OwnPlan s ref sl p) (hr : r.plan = some ref)
    (hl : p.state = .launched) {e : Launch} (he : (s.lane ref.lane).launch = some e) (hm : e.mergeSeen = false) :
    s.checkAs k r true true =
      (((s.recond k .stray .occupied none).abortLaunch ref.lane).placeFrame .occupied k .one).endRef .abort ref := by
  have hps := hp.planStateOf? hr
  simp only [State.checkAs, if_true, State.checkOccupied, hc]
  rw [if_pos (by rw [hps, hl]), s.mergeSeenOf_eq hr he, hm, if_neg Bool.false_ne_true, State.checkAbort]
  simp only [hr]
  exact State.endPlanOf_eq _ hr _

/-- R26: occupied, of a LAUNCHED plan seen at the merge eye. -/
theorem State.checkAs_double (hc : r.cond = .own) (hp : OwnPlan s ref sl p) (hr : r.plan = some ref)
    (hl : p.state = .launched) {e : Launch} (he : (s.lane ref.lane).launch = some e) (hm : e.mergeSeen = true) :
    s.checkAs k r true true = ((s.setSeen k .occupied).markDouble r).queueReport (.mismatch k .doubleLoad) := by
  have hps := hp.planStateOf? hr
  simp only [State.checkAs, if_true, State.checkOccupied, hc]
  rw [if_pos (by rw [hps, hl]), s.mergeSeenOf_eq hr he, hm, if_pos rfl]

/-- R26, R80, R94: the plan and its lane's launch entry marked double. -/
theorem State.markDouble_eq (hp : OwnPlan s ref sl p) (hr : r.plan = some ref) :
    s.markDouble r = { s with
      plans := s.plans.set ref.lane sl (some { p with double := true })
      lanes := s.lanes.set ref.lane (s.lane ref.lane).markDouble } := by
  simp only [State.markDouble, hr, hp.slot, hp.plan, Option.map_some]
  exact State.modLane_eq rfl

end

/-! ### An aborted launch (R96, R99) -/

section
variable {s x : State} {ref : PlanRef} {k : Nat} {c : Cond} {seen : Seen} {own : TxEntry}

/-- The lane an aborted launch leaves. -/
def LaneCtl.abortedLane (c : LaneCtl) (e : Launch) (g : Tag) : LaneCtl :=
  { ({ c with launch := some { e with aborted := true } } : LaneCtl).name .stranded [g] with
    state := .blocked, reason := .stranded, removal := true }

theorem State.abortLaunch_blocks {s : State} {l : Lane} {e : Launch} {q : Parcel}
    (he : (s.lane l).launch = some e) (hq : (s.lane l).at? .launching = some q)
    (hs : (s.lane l).state = .running ∨ (s.lane l).state = .paused) :
    s.abortLaunch l = { s with
      lanes := s.lanes.set l ((s.lane l).abortedLane e q.tag)
      rep := ((s.queueReport (.rejected l q.tag .stranded)).queueReport (.lane l .blocked .stranded)).rep } := by
  have hm : (s.modLane l fun c => { c with launch := c.launch.map fun e => { e with aborted := true } }) =
      { s with lanes := s.lanes.set l { s.lane l with launch := some { e with aborted := true } } } :=
    State.modLane_eq (by rw [he]; rfl)
  simp only [State.abortLaunch, hq]
  rw [hm]
  obtain ⟨u, hu⟩ : ∃ u : State, u = { s with
    lanes := s.lanes.set l { s.lane l with launch := some { e with aborted := true } } } := ⟨_, rfl⟩
  rw [← hu]
  have hl : u.lane l = { s.lane l with launch := some { e with aborted := true } } := by
    rw [hu]
    exact Two.get_set_self ..
  have hst : (u.lane l).state = .running ∨ (u.lane l).state = .paused := by
    rw [hl]
    exact hs
  have hrep : u.blockReports l .stranded [q.tag] =
      ((s.queueReport (.rejected l q.tag .stranded)).queueReport (.lane l .blocked .stranded)).rep := by
    rw [hu]
    rfl
  have hset : u.lanes.set l ((s.lane l).abortedLane e q.tag) = s.lanes.set l ((s.lane l).abortedLane e q.tag) := by
    rw [hu]
    exact Two.set_set ..
  rw [State.takeBlock_running u l _ _ _ hst, hl, hrep]
  refine (congrArg (fun v => ({ u with lanes := v, rep := _ } : State)) hset).trans ?_
  rw [hu]

theorem OwnPlaced.report (h : OwnPlaced s x ref k c seen own) (e : Report) :
    OwnPlaced s (x.queueReport e) ref k c seen own :=
  ⟨h.plans, h.table, h.txq, h.enabled, h.trays, h.misses⟩

theorem LaneCtl.abortedLane_misses (c : LaneCtl) (e : Launch) (g : Tag) :
    (c.abortedLane e g).parcels.map Parcel.misses = c.parcels.map Parcel.misses := by
  simp only [LaneCtl.abortedLane, LaneCtl.name, List.map_map]
  refine List.map_congr_left fun q _ => ?_
  simp only [Function.comp_apply]
  split <;> rfl

/-- R26: the record STRAY, the launch aborted, the OCCUPIED placed with room. -/
theorem ownPlaced_abort {a : State} {e : Launch} {q : Parcel} (hen : a.line.enabled = true)
    (hlen : a.txq.length < 8) (htw : a.hasTwin (plainEntry .occupied k .one) = false)
    (he : (a.lane ref.lane).launch = some e) (hq : (a.lane ref.lane).at? .launching = some q)
    (hs : (a.lane ref.lane).state = .running ∨ (a.lane ref.lane).state = .paused) :
    let x := ((a.recond k .stray .occupied none).abortLaunch ref.lane).placeFrame .occupied k .one
    OwnPlaced a x ref k .stray .occupied (plainEntry .occupied k .one) ∧
      x.lane ref.lane = (a.lane ref.lane).abortedLane e q.tag ∧
      x.rep = ((a.queueReport (.rejected ref.lane q.tag .stranded)).queueReport
        (.lane ref.lane .blocked .stranded)).rep := by
  intro x
  have hb := a.recond_eq k .stray .occupied none
  obtain ⟨b, hbe⟩ : ∃ b, b = a.recond k .stray .occupied none := ⟨_, rfl⟩
  have hx : x = (b.abortLaunch ref.lane).placeFrame .occupied k .one := by rw [hbe]
  rw [← hbe] at hb
  have hbl : b.lane ref.lane = a.lane ref.lane := by rw [hb]; rfl
  have hab := State.abortLaunch_blocks (s := b) (l := ref.lane) (by rw [hbl]; exact he) (by rw [hbl]; exact hq)
    (by rw [hbl]; exact hs)
  rw [hbl] at hab
  have hr : ((b.queueReport (.rejected ref.lane q.tag .stranded)).queueReport (.lane ref.lane .blocked .stranded)).rep =
      ((a.queueReport (.rejected ref.lane q.tag .stranded)).queueReport (.lane ref.lane .blocked .stranded)).rep := by
    rw [hb]
    rfl
  rw [hr] at hab
  generalize ((a.queueReport (.rejected ref.lane q.tag .stranded)).queueReport
    (.lane ref.lane .blocked .stranded)).rep = rp at hab ⊢
  generalize b.abortLaunch ref.lane = w at hab hx
  have hwq : w.txq = a.txq := by rw [hab, hb]
  have hwl : w.line = a.line := by rw [hab, hb]
  rw [State.placeFrame_of_room (by rw [hwl]; exact hen) ((State.hasTwin_congr hwq _).trans htw)
    (by rw [hwq]; exact hlen), State.appendEntry_eq] at hx
  have hxl : x.lane ref.lane = (a.lane ref.lane).abortedLane e q.tag := by
    rw [hx, hab]
    exact Two.get_set_self ..
  refine ⟨⟨?_, ?_, ?_, ?_, ?_, ?_⟩, hxl, ?_⟩
  · rw [hx, hab, hb]
  · rw [hx, hab, hb]
  · rw [hx]
    exact congrArg (· ++ _) hwq
  · rw [hx]
    dsimp only
    rw [hwl]
    split <;> rfl
  · rw [hx, hab, ← hbe]
  · rw [hxl]
    exact LaneCtl.abortedLane_misses ..
  · rw [hx, hab]

end

/-- Settles O19: the check event of an OWN record by the state of its plan, then the end of the event, in which
nothing is planned. -/
theorem checkEventOfOwnRecord : Obligations.CheckEventOfOwnRecord := by
  unfold Obligations.CheckEventOfOwnRecord
  intro s k r ref sl p hq he ho hm hen hk hown hplan hslot hp halone hlen htwo htwd htwr c ended sent stray
  have hop : OwnPlan s ref sl p := ⟨hslot, hp, halone⟩
  have hlen8 : s.txq.length < 8 := by omega
  have hx : ∀ chk lvl, ∃ a : State, a = s.advanced chk lvl ∧ a.tray? k = some r ∧ OwnPlan a ref sl p ∧
      ∃ t, exec (.encoderCount true chk lvl) s = .next t ∧
        EventEnd ((a.checkAs k r chk lvl).countDoubt) t := fun chk lvl => by
    obtain ⟨t, h, e⟩ := exec_trayEvent_unplanned chk lvl hq he ho hm
    have hmap : (s.advanced chk lvl).mapInUse = true := by
      have hu : s.mapInUse = true := by simp [State.mapInUse, ho]
      exact hu
    have hev : (s.advanced chk lvl).trayEvent (.check k) = (s.advanced chk lvl).checkAs k r chk lvl :=
      State.checkEvent_eq hmap hk
    rw [hev] at e
    exact ⟨s.advanced chk lvl, rfl, hk, hop.congr rfl, t, h, e⟩
  have hends : ∀ {a : State} {chk lvl : Bool} {t : State} {own : TxEntry}, a = s.advanced chk lvl →
      OwnEnded a t ref sl p k own → ended t ∧ sent t own := fun ha h => by
    subst ha
    exact ⟨⟨h.plan, h.trig, h.misses, h.other⟩, h.released, h.claim⟩
  refine ⟨fun hn => ?_, fun e q hl hla hms hat hst => ?_, fun e hl hla hms => ?_, fun chk => ?_, ?_⟩
  · obtain ⟨a, ha, hka, hoa, t, h, ev⟩ := hx true true
    obtain ⟨hpl, hrep, -⟩ := ownPlaced_append (s := a) (k := k) (c := .stray) (seen := .occupied) ref (kind := .occupied)
      (by rw [ha]; exact hen) (by rw [ha]; exact hlen8) (by rw [ha]; exact htwo)
    have hso := hpl.soleEnded hoa (e := .abandon) (by decide) (by rw [ha]; exact hen) (by rw [ha]; exact hlen)
      (by rw [ha]; exact htwr) rfl
    rw [State.checkAs_unlaunched hown hoa hplan hn] at ev
    obtain ⟨h1, h2⟩ := hends ha (hpl.ended hka hso rfl ev)
    refine ⟨t, h, h1, h2, (ev.tray k).trans (hpl.tray hka (by decide) hso :), ev.rep.trans (hso.rep.trans (hrep.trans ?_))⟩
    rw [ha]
    rfl
  · obtain ⟨a, ha, hka, hoa, t, h, ev⟩ := hx true true
    have hal : a.lane ref.lane = s.lane ref.lane := by rw [ha]; rfl
    obtain ⟨hpl, hxl, hrep⟩ := ownPlaced_abort (a := a) (k := k) (ref := ref) (e := e) (q := q) (by rw [ha]; exact hen)
      (by rw [ha]; exact hlen8) (by rw [ha]; exact htwo) (by rw [hal]; exact hla) (by rw [hal]; exact hat)
      (by rw [hal]; exact hst)
    rw [State.checkAs_abort hown hoa hplan hl (by rw [hal]; exact hla) hms] at ev
    have hso := hpl.soleEnded hoa (e := .abort) (by decide) (by rw [ha]; exact hen) (by rw [ha]; exact hlen)
      (by rw [ha]; exact htwr) rfl
    obtain ⟨f, hf, -⟩ := hso.lanes ref.lane
    obtain ⟨h1, h2⟩ := hends ha (hpl.ended hka hso rfl ev)
    have hm := ev.lanes ref.lane
    have htray := hpl.tray hka (by decide) hso
    have hsr := hso.rep
    generalize ((((a.recond k .stray .occupied none).abortLaunch ref.lane).placeFrame .occupied k .one).endRef
      .abort ref) = y at ev hf hm htray hsr
    have hyl : y.countDoubt.lane ref.lane = y.lane ref.lane := rfl
    rw [hyl, hf, hxl] at hm
    refine ⟨t, h, h1, h2, (ev.tray k).trans htray, hm.launch, hm.state, hm.reason, hm.removal,
      ev.rep.trans (hsr.trans (hrep.trans ?_))⟩
    rw [ha]
    rfl
  · obtain ⟨a, ha, hka, hoa, t, h, ev⟩ := hx true true
    have hal : a.lane ref.lane = s.lane ref.lane := by rw [ha]; rfl
    have hse := State.setSeen_eq hka .occupied
    obtain ⟨b, hb⟩ : ∃ b, b = a.setSeen k .occupied := ⟨_, rfl⟩
    have hob : OwnPlan b ref sl p := hoa.congr (by rw [hb, hse])
    have hbl : b.lane ref.lane = s.lane ref.lane := by rw [hb, hse]; exact hal
    rw [State.checkAs_double hown hoa hplan hl (by rw [hal]; exact hla) hms, ← hb, State.markDouble_eq hob hplan, hbl] at ev
    refine ⟨t, h, (ev.tray k).trans ?_, (ev.plan ref.lane sl).trans ?_, (ev.lanes ref.lane).launch.trans ?_,
      ev.txq.trans ?_, ev.rep.trans ?_⟩
    · show b.trays[k]? = _
      rw [hb, hse]
      exact List.getElem?_set_self (List.getElem?_eq_some_iff.mp hka).1
    · exact Four.get_set_self ..
    · have hmd : (s.lane ref.lane).markDouble.launch = some { e with double := true } := by
        have hl' : (s.lane ref.lane).launch = some e := hla
        rw [LaneCtl.markDouble, hl']
        rfl
      exact (congrArg LaneCtl.launch (Two.get_set_self b.lanes ref.lane _)).trans hmd
    · show b.txq = s.txq
      rw [hb, hse, ha]
      rfl
    · exact State.queueReport_rep_congr (by rw [hb, hse, ha]; rfl) _
  · obtain ⟨a, ha, hka, hoa, t, h, ev⟩ := hx chk false
    obtain ⟨hpl0, hrep, hlanes⟩ := ownPlaced_append (s := a) (k := k) (c := .defective)
      (seen := sampleSeen a.pins.chk) ref (kind := .defect)
      (by rw [ha]; exact hen) (by rw [ha]; exact hlen8) (by rw [ha]; exact htwd)
    have hpl := hpl0.report (.defect k .own)
    have hso := hpl.soleEnded hoa (e := .abandon) (by decide) (by rw [ha]; exact hen) (by rw [ha]; exact hlen)
      (by rw [ha]; exact htwr) rfl
    have hxr : ((a.recond k .defective (sampleSeen a.pins.chk) none).placeFrame .defect k .one).rep = s.rep :=
      hrep.trans (by rw [ha]; rfl)
    have hlaunch := ((hso.lanes ref.lane).launch)
    have htray := hpl.tray hka (by decide) hso
    have hsr := hso.rep
    have hchk : a.pins.chk = chk := by rw [ha]; rfl
    rw [State.checkAs_tilted hown hoa hplan chk] at ev
    generalize hy : ((((a.recond k .defective (sampleSeen a.pins.chk) none).placeFrame .defect k .one).queueReport
      (.defect k .own)).endRef .abandon ref) = y at ev hso hlaunch htray hsr
    obtain ⟨z, hz⟩ : ∃ z, z = if p.state = .launched then y.queueReport (.mismatch k .tiltedTarget) else y := ⟨_, rfl⟩
    have hzy : z = { y with rep := z.rep } := by
      rw [hz]
      split <;> rfl
    rw [← hz] at ev
    obtain ⟨h1, h2⟩ := hends ha (hpl.ended hka hso hzy ev)
    refine ⟨t, h, h1, h2, (ev.lanes ref.lane).launch.trans ?_, (ev.tray k).trans ?_, ev.rep.trans ?_⟩
    · have hzl : z.countDoubt.lane ref.lane = y.lane ref.lane := by rw [hzy]; rfl
      rw [hzl, hlaunch]
      have hls : a.lanes = s.lanes := by rw [ha]; rfl
      exact congrArg (fun v => (Two.get v ref.lane).launch) (hlanes.trans hls)
    · have hzt : z.countDoubt.tray? k = y.tray? k := by rw [hzy]; rfl
      rw [hzt, htray, hchk]
      rfl
    · show z.rep = _
      have hyr : y.rep = (s.queueReport (.defect k .own)).rep := hsr.trans (State.queueReport_rep_congr hxr _)
      rw [hz]
      split
      · exact State.queueReport_rep_congr hyr _
      · exact hyr
  · obtain ⟨a, ha, hka, hoa, t, h, ev⟩ := hx false true
    have hfree : a.checkAs k r false true = a.setSeen k .free := by
      simp [State.checkAs, State.checkFree, hown]
    rw [hfree, State.setSeen_eq hka] at ev
    refine ⟨t, h, (ev.tray k).trans ?_, ev.plans.trans ?_, ev.txq.trans ?_, ev.rep.trans ?_⟩
    · exact List.getElem?_set_self (List.getElem?_eq_some_iff.mp hka).1
    · rw [ha]; rfl
    · rw [ha]; rfl
    · rw [ha]; rfl

end Sys2Proof.Machine
end

section
/-! PROOF. Twins, room made in a full queue, and frames that go stale at a zone exit (R53, R55, R57). -/

open Sys2Proof Sys2Proof.Machine

namespace Sys2Proof.Machine

/-! ### The entry that makes room (R55) -/

theorem newestWaitingClaim_none : ∀ {es : List TxEntry} (i : Nat),
    (∀ q ∈ es, q.kind.isClaim = true → q.phase = .sending) → newestWaitingClaim i es = none
  | [], _, _ => rfl
  | e :: es, i, h => by
    rw [newestWaitingClaim, newestWaitingClaim_none (i + 1) fun q hq => h q (List.mem_cons_of_mem _ hq)]
    dsimp only
    by_cases hc : e.kind.isClaim = true
    · simp [h e List.mem_cons_self hc]
    · simp [hc]

theorem newestWaitingClaim_eq {e : TxEntry} {younger : List TxEntry} (hc : e.kind.isClaim = true)
    (hw : e.phase = .waiting) (hy : ∀ q ∈ younger, q.kind.isClaim = true → q.phase = .sending) :
    ∀ (older : List TxEntry) (i : Nat),
      newestWaitingClaim i (older ++ e :: younger) = some (i + older.length, e)
  | [], i => by
    rw [List.nil_append, newestWaitingClaim, newestWaitingClaim_none _ hy]
    simp [hc, hw]
  | q :: older, i => by
    rw [List.cons_append, newestWaitingClaim, newestWaitingClaim_eq hc hw hy older (i + 1)]
    simp only [List.length_cons, Option.some.injEq, Prod.mk.injEq, and_true]
    omega

theorem oldestWaiting_eq {e : TxEntry} {younger : List TxEntry} (hw : e.phase = .waiting) :
    ∀ (older : List TxEntry) (i : Nat), (∀ q ∈ older, q.phase = .sending) →
      oldestWaiting i (older ++ e :: younger) = some (i + older.length, e)
  | [], i, _ => by simp [oldestWaiting, hw]
  | q :: older, i, h => by
    have hq : q.phase ≠ .waiting := by rw [h q List.mem_cons_self]; nofun
    rw [List.cons_append, oldestWaiting, if_neg hq,
      oldestWaiting_eq hw older (i + 1) fun x hx => h x (List.mem_cons_of_mem _ hx)]
    simp only [List.length_cons, Option.some.injEq, Prod.mk.injEq, and_true]
    omega

section
variable {s : State} {older younger : List TxEntry} {e own : TxEntry} {ref : PlanRef} {sl : Slot} {p : Plan}

theorem work_place_twin (n : Nat) (he : s.line.enabled = true) (ht : s.hasTwin own = true) :
    work (n + 1) (.place own) s = s := by
  rw [work, if_neg (by simp [he]), if_pos ht]

theorem State.dropEntry_split_eq (hs : s.txq = older ++ e :: younger) :
    s.dropEntry older.length = { s with txq := older ++ younger, line := (s.dropEntry older.length).line } ∧
      (s.dropEntry older.length).line.enabled = s.line.enabled := by
  have h := s.dropEntry_eq older.length
  have hq := State.dropEntry_split hs
  constructor
  · rw [← hq, h]
  · rw [h]
    dsimp only
    split <;> rfl

/-- Without a waiting CLAIM the oldest waiting entry leaves, reported DROPPED. -/
theorem work_place_dropping (n : Nat) (he : s.line.enabled = true) (ht : s.hasTwin own = false)
    (hlen : s.txq.length = 8) (hs : s.txq = older ++ e :: younger) (hw : e.phase = .waiting)
    (hc : ∀ q ∈ older ++ e :: younger, q.kind.isClaim = true → q.phase = .sending)
    (ho : ∀ q ∈ older, q.phase = .sending) :
    (work (n + 1) (.place own) s).txq = older ++ younger ++ [own] ∧
      (work (n + 1) (.place own) s).rep = (s.reportDropped e).rep ∧
      (work (n + 1) (.place own) s).plans = s.plans := by
  have h1 := newestWaitingClaim_none 0 hc
  have h2 := oldestWaiting_eq (younger := younger) hw older 0 ho
  rw [← hs] at h1 h2
  have hx : work (n + 1) (.place own) s = ((s.dropEntry older.length).reportDropped e).appendEntry own := by
    rw [work, if_neg (by simp [he]), if_neg (by simp [ht]), if_neg (by rw [hlen]; decide), h1]
    dsimp only
    rw [h2, Nat.zero_add]
  obtain ⟨hd, -⟩ := State.dropEntry_split_eq hs
  rw [hx, hd, State.appendEntry_eq]
  exact ⟨rfl, rfl, rfl⟩

theorem work_ending_eq_endRef (n : Nat) (h : OwnPlan s ref sl p) (ht : p.state = .tentative) {x : PlanEnding} :
    work (n + 1) (.ending x ref.lane sl) s = s.endRef x ref := by
  rw [State.endRef_of_slot h.slot, State.endPlan_sole h.plan h.alone, work_ending_sole n h.plan h.alone, if_pos ht,
    if_pos ht]

/-- The newest waiting CLAIM leaves, and its plan ends, unreported. -/
theorem work_place_unclaiming (n : Nat) (he : s.line.enabled = true) (ht : s.hasTwin own = false)
    (hlen : s.txq.length = 8) (hs : s.txq = older ++ e :: younger) (hw : e.phase = .waiting)
    (hk : e.kind.isClaim = true) (hy : ∀ q ∈ younger, q.kind.isClaim = true → q.phase = .sending)
    (hp : e.plan = some ref) (hee : e.ended = false) (hn : ∀ q ∈ older ++ younger, q.plan ≠ some ref)
    (h : OwnPlan s ref sl p) (hten : p.state = .tentative) :
    ∃ d, d = { s with txq := older ++ younger, line := d.line } ∧
      SoleEnded d (d.endRef .withdraw ref) ref sl p ∧
      work (n + 2) (.place own) s = (d.endRef .withdraw ref).appendEntry own ∧
      (d.endRef .withdraw ref).txq = older ++ younger := by
  obtain ⟨hd, hdl⟩ := State.dropEntry_split_eq hs
  obtain ⟨d, hde⟩ : ∃ d, d = s.dropEntry older.length := ⟨_, rfl⟩
  rw [← hde] at hd hdl
  have hod : OwnPlan d ref sl p := h.congr (by rw [hd])
  have hso := endRef_soleEnded (e := .withdraw) hod (by decide) fun hc => absurd hten hc
  have hdq : d.txq = older ++ younger := by rw [hd]
  have hyq := (hso.noClaim hten (by rw [hdq]; exact hn)).trans hdq
  refine ⟨d, hd, hso, ?_, hyq⟩
  have h1 := newestWaitingClaim_eq hk hw hy older 0
  rw [← hs, Nat.zero_add] at h1
  have hcs : d.claimSlot? e = some (ref.lane, sl) := by
    simp [State.claimSlot?, TxEntry.livePlan?, hee, hp, hod.slot]
  rw [work, if_neg (by simp [he]), if_neg (by simp [ht]), if_neg (by rw [hlen]; decide), h1]
  dsimp only
  rw [← hde, hcs]
  dsimp only
  rw [work_ending_eq_endRef n hod hten]
  refine work_place_of_room ?_ ?_ ?_
  · rcases hso.work.line with e | e <;> rw [e]
    · exact hdl.trans he
    · exact hdl.trans he
  · rw [State.hasTwin, hyq]
    rw [State.hasTwin, hs] at ht
    simp only [List.any_append, List.any_cons, Bool.or_eq_false_iff] at ht ⊢
    exact ⟨ht.1, ht.2.2⟩
  · have hl := congrArg List.length hs
    rw [hlen] at hl
    rw [hyq]
    simp only [List.length_append, List.length_cons] at hl ⊢
    omega

/-! ### What the withdrawal of a plan's CLAIM leaves -/

/-- Every other record is kept, its partner perhaps none. -/
def RecordsKeptBut (k : Nat) (s t : State) : Prop :=
  ∀ j q, j ≠ k → s.tray? j = some q → ∃ q', t.tray? j = some q' ∧ (q' = q ∨ q' = { q with partner := none })

theorem recordsKeptBut_recond (s : State) {k : Nat} {r : TrayRec} (hr : s.tray? k = some r) (c : Cond) (seen : Seen)
    (holder : Option Nat) : RecordsKeptBut k s (s.recond k c seen holder) :=
  fun _ _ hj hq => State.recond_trayRec_kept hr hq hj c seen holder

/-- The plan of a CLAIM that left the queue is gone, nothing reported (R33). -/
structure ClaimOut (s t : State) (k : Nat) (ref : PlanRef) (sl : Slot) (p : Plan) (txq : List TxEntry) : Prop where
  txq : t.txq = txq
  plan : t.plan ref.lane sl = none
  trig : t.trig.get ref.lane sl = none
  rep : t.rep = s.rep
  other : ∀ j ∈ s.namedTrays p.target p.span, j ≠ k → ∀ q, s.tray? j = some q → q.cond = .own →
    q.plan = some ref → t.tray? j = some
      { cond := .opened, seen := q.seen, holder := none, partner := none, plan := none }

theorem SoleEnded.claimOut {u d y : State} {k : Nat} {q : List TxEntry} (h : SoleEnded d y ref sl p)
    (hu : RecordsKeptBut k s u) (hd : d = { u with txq := q, line := d.line }) (ht : u.table = s.table)
    (hr : u.rep = s.rep) (hq : y.txq = q) : ClaimOut s y k ref sl p q where
  txq := hq
  plan := h.plan
  trig := h.trig
  rep := h.rep.trans ((congrArg State.rep hd).trans hr)
  other j hj hjk r hsr ho hp := by
    obtain ⟨r', hr', e⟩ := hu j r hjk hsr
    have hd' : d.tray? j = some r' := (congrArg (·.tray? j) hd).trans hr'
    have hj' : j ∈ d.namedTrays p.target p.span := by
      rw [State.namedTrays_congr ((congrArg State.table hd).trans ht)]
      exact hj
    have hx : r'.cond = r.cond ∧ r'.plan = r.plan ∧ r'.seen = r.seen := by
      rcases e with e | e <;> rw [e] <;> exact ⟨rfl, rfl, rfl⟩
    have := h.own j hj' r' hd' (hx.1.trans ho) (hx.2.1.trans hp)
    rw [hx.2.2] at this
    exact this

theorem ClaimOut.exited {y z : State} {k : Nat} {q : List TxEntry} (h : ClaimOut s y k ref sl p q)
    (hz : z = { y with trays := z.trays }) (hk : RecordsKeptBut k y z) : ClaimOut s z k ref sl p q where
  txq := (congrArg State.txq hz).trans h.txq
  plan := (congrArg (·.plan ref.lane sl) hz).trans h.plan
  trig := (congrArg (·.trig.get ref.lane sl) hz).trans h.trig
  rep := (congrArg State.rep hz).trans h.rep
  other j hj hjk r hsr ho hp := by
    obtain ⟨r', hr', e⟩ := hk j _ hjk (h.other j hj hjk r hsr ho hp)
    rcases e with e | e <;> rw [hr', e]

theorem ClaimOut.appended {y : State} {k : Nat} {q : List TxEntry} (h : ClaimOut s y k ref sl p q) (own : TxEntry) :
    ClaimOut s (y.appendEntry own) k ref sl p (q ++ [own]) := by
  rw [State.appendEntry_eq]
  exact ⟨congrArg (· ++ [own]) h.txq, h.plan, h.trig, h.rep, h.other⟩

theorem ClaimOut.eventEnd {y t : State} {k : Nat} {q : List TxEntry} (h : ClaimOut s y k ref sl p q)
    (e : EventEnd y.countDoubt t) : ClaimOut s t k ref sl p q where
  txq := e.txq.trans h.txq
  plan := (e.plan ref.lane sl).trans h.plan
  trig := (congrArg (Four.get · ref.lane sl) e.trig).trans h.trig
  rep := e.rep.trans h.rep
  other j hj hjk r hsr ho hp := (e.tray j).trans (h.other j hj hjk r hsr ho hp)

/-! ### A frame that goes stale (R57) -/

theorem State.zoneExitRecord_kept (s : State) (k : Nat) :
    s.zoneExitRecord k = { s with trays := (s.zoneExitRecord k).trays } ∧
      RecordsKeptBut k s (s.zoneExitRecord k) := by
  have hself : RecordsKeptBut k s s := fun j q _ hq => ⟨q, hq, .inl rfl⟩
  cases hr : s.tray? k with
  | none =>
    have h : s.zoneExitRecord k = s := by simp only [State.zoneExitRecord, hr]
    rw [h]
    exact ⟨rfl, hself⟩
  | some r =>
    by_cases hd : r.cond = .defective
    · rw [State.zoneExitRecord_defective hr hd, State.setSeen_eq hr]
      refine ⟨rfl, fun j q hj hq => ⟨q, ?_, .inl rfl⟩⟩
      exact (List.getElem?_set_ne (Ne.symm hj)).trans hq
    · by_cases ho : r.cond = .own
      · have h : s.zoneExitRecord k = s := by simp only [State.zoneExitRecord, hr, ho]
        rw [h]
        exact ⟨rfl, hself⟩
      · rw [State.zoneExitRecord_opens hr hd ho]
        exact ⟨s.recond_eq .., recordsKeptBut_recond s hr _ _ _⟩

theorem FrameKind.sameKind_self (a : FrameKind) : a.sameKind a = true := by
  cases a <;> rfl

section
variable {k : Nat} {u : State} (hu : u.txq = older ++ e :: younger) (hw : e.phase = .waiting) (hk : e.tray = k)
  (hs : ∀ q ∈ older ++ younger, q.tray = k → q.phase = .sending)
include hu hw hk hs

theorem State.staleEntries_single : u.staleEntries k = [e] := by
  have hn : ∀ q ∈ older ++ younger, (q.phase == .waiting && q.tray == k) = false := fun q hq => by
    by_cases ht : q.tray = k
    · rw [hs q hq ht]
      rfl
    · simp [ht]
  have ho : older.filter (fun q => q.phase == .waiting && q.tray == k) = [] :=
    List.filter_eq_nil_iff.2 fun q hq => by simp [hn q (List.mem_append_left _ hq)]
  have hy : younger.filter (fun q => q.phase == .waiting && q.tray == k) = [] :=
    List.filter_eq_nil_iff.2 fun q hq => by simp [hn q (List.mem_append_right _ hq)]
  rw [State.staleEntries, hu, List.filter_append, List.filter_cons, ho, hy, hw, hk]
  simp

theorem State.dropStaleAll_single : u.dropStaleAll k = u.dropStale e := by
  have h := State.staleEntries_single hu hw hk hs
  have hn : (u.staleEntries k).length ≤ 1 := by simp [h]
  rw [State.dropStaleAll, State.freeOrder_of_short _ hn, State.afterOrder_of_short _ hn, h]
  rfl

theorem State.findIdx_stale :
    u.txq.findIdx? (fun q => q.phase == .waiting && q.tray == e.tray && q.kind.sameKind e.kind) =
      some older.length := by
  have ho : ∀ q ∈ older, (q.phase == .waiting && q.tray == e.tray && q.kind.sameKind e.kind) = false := fun q hq => by
    by_cases ht : q.tray = k
    · rw [hs q (List.mem_append_left _ hq) ht]
      rfl
    · simp [hk, ht]
  rw [hu, List.findIdx?_append, List.findIdx?_eq_none_iff.2 ho, List.findIdx?_cons, hw, FrameKind.sameKind_self]
  simp

theorem State.dropStale_plain (hc : e.kind.isClaim = false) :
    (u.dropStale e).txq = older ++ younger ∧ (u.dropStale e).rep = (u.queueReport (.lineDropped e.kind.code k)).rep ∧
      (u.dropStale e).plans = u.plans := by
  have h : u.dropStale e = (u.dropEntry older.length).reportDropped e := by
    rw [State.dropStale, State.findIdx_stale hu hw hk hs]
    simp [hc]
  rw [h, (State.dropEntry_split_eq hu).1, State.reportDropped, hk]
  exact ⟨rfl, rfl, rfl⟩

theorem State.dropStale_claim (hc : e.kind.isClaim = true) (hp : e.plan = some ref) (hee : e.ended = false)
    (hn : ∀ q ∈ older ++ younger, q.plan ≠ some ref) (h : OwnPlan u ref sl p) (ht : p.state = .tentative)
    (hks : RecordsKeptBut k s u) (hst : u.table = s.table) (hr : u.rep = s.rep) :
    ClaimOut s (u.dropStale e) k ref sl p (older ++ younger) := by
  have hx : u.dropStale e = (u.dropEntry older.length).endRef .withdraw ref := by
    rw [State.dropStale, State.findIdx_stale hu hw hk hs]
    simp [hc, TxEntry.livePlan?, hee, hp]
  obtain ⟨hd, -⟩ := State.dropEntry_split_eq hu
  rw [hx]
  generalize u.dropEntry older.length = d at hd ⊢
  have hso := endRef_soleEnded (e := .withdraw) (h.congr (t := d) (by rw [hd])) (by decide) fun hc => absurd ht hc
  have hdq : d.txq = older ++ younger := by rw [hd]
  exact hso.claimOut hks hd hst hr ((hso.noClaim ht (by rw [hdq]; exact hn)).trans hdq)

end

/-- R22, R57: the two orders of a zone exit with one stale entry. -/
theorem State.zoneExit_single {k : Nat} (hm : s.mapInUse = true) (hu : s.txq = older ++ e :: younger)
    (hw : e.phase = .waiting) (hk : e.tray = k) (hs : ∀ q ∈ older ++ younger, q.tray = k → q.phase = .sending) :
    ∃ n, s.zoneExit k = ((s.setFreeCount n).zoneExitRecord k).dropStale e ∨
      s.zoneExit k = ((s.setFreeCount n).dropStale e).zoneExitRecord k := by
  have hr : ∀ n, ((s.setFreeCount n).zoneExitRecord k).txq = older ++ e :: younger := fun n => by
    rw [((s.setFreeCount n).zoneExitRecord_kept k).1]
    exact hu
  rw [State.zoneExit, if_pos hm]
  split
  · refine ⟨s.freeCount + 1, ?_⟩
    split
    · exact .inl (State.dropStaleAll_single (hr _) hw hk hs)
    · exact .inr (congrArg (·.zoneExitRecord k) (State.dropStaleAll_single (u := s.bumpFree) hu hw hk hs))
  · exact ⟨s.freeCount, .inl (State.dropStaleAll_single (hr s.freeCount) hw hk hs)⟩

theorem State.zoneExit_plain {k : Nat} (hm : s.mapInUse = true) (hu : s.txq = older ++ e :: younger)
    (hw : e.phase = .waiting) (hk : e.tray = k) (hs : ∀ q ∈ older ++ younger, q.tray = k → q.phase = .sending)
    (hc : e.kind.isClaim = false) :
    (s.zoneExit k).txq = older ++ younger ∧ (s.zoneExit k).rep = (s.queueReport (.lineDropped e.kind.code k)).rep ∧
      (s.zoneExit k).plans = s.plans := by
  obtain ⟨n, h | h⟩ := State.zoneExit_single hm hu hw hk hs
  · obtain ⟨he, -⟩ := (s.setFreeCount n).zoneExitRecord_kept k
    obtain ⟨h1, h2, h3⟩ := State.dropStale_plain (u := (s.setFreeCount n).zoneExitRecord k) (by rw [he]; exact hu)
      hw hk hs hc
    rw [h]
    refine ⟨h1, h2.trans (State.queueReport_rep_congr ?_ _), h3.trans ?_⟩
    · rw [he]
      rfl
    · rw [he]
      rfl
  · obtain ⟨he, -⟩ := ((s.setFreeCount n).dropStale e).zoneExitRecord_kept k
    obtain ⟨h1, h2, h3⟩ := State.dropStale_plain (u := s.setFreeCount n) hu hw hk hs hc
    rw [h, he]
    exact ⟨h1, h2, h3⟩

theorem State.zoneExit_claim {k : Nat} (hm : s.mapInUse = true) (hu : s.txq = older ++ e :: younger)
    (hw : e.phase = .waiting) (hk : e.tray = k) (hs : ∀ q ∈ older ++ younger, q.tray = k → q.phase = .sending)
    (hc : e.kind.isClaim = true) (hp : e.plan = some ref) (hee : e.ended = false)
    (hn : ∀ q ∈ older ++ younger, q.plan ≠ some ref) (ho : OwnPlan s ref sl p) (ht : p.state = .tentative) :
    ClaimOut s (s.zoneExit k) k ref sl p (older ++ younger) := by
  obtain ⟨n, h | h⟩ := State.zoneExit_single hm hu hw hk hs
  · obtain ⟨he, hks⟩ := (s.setFreeCount n).zoneExitRecord_kept k
    rw [h]
    generalize (s.setFreeCount n).zoneExitRecord k = u at he hks ⊢
    exact State.dropStale_claim (by rw [he]; exact hu) hw hk hs hc hp hee hn (ho.congr (by rw [he]; rfl)) ht hks
      (by rw [he]; rfl) (by rw [he]; rfl)
  · obtain ⟨he, hks⟩ := ((s.setFreeCount n).dropStale e).zoneExitRecord_kept k
    have hcl := State.dropStale_claim (s := s) (u := s.setFreeCount n) hu hw hk hs hc hp hee hn (ho.congr rfl) ht
      (fun j q _ hq => ⟨q, hq, .inl rfl⟩) rfl rfl
    rw [h]
    exact hcl.exited he hks

end

/-- Settles O36: the frame placed by a check event at a full queue, and the frame a zone exit finds waiting. -/
theorem queueDropsTwinsMakesRoomAndGoesStale : Obligations.QueueDropsTwinsMakesRoomAndGoesStale := by
  unfold Obligations.QueueDropsTwinsMakesRoomAndGoesStale
  intro s k older younger e hq ho hm hen hs hw own endsPlan
  have hmap : s.mapInUse = true := by simp [State.mapInUse, ho]
  refine ⟨fun he hcond => ?_, fun chk lvl he hk hsend => ?_⟩
  · obtain ⟨r, hr, hc⟩ := Option.map_eq_some_iff.1 hcond
    obtain ⟨t, h, ev⟩ := exec_trayEvent_unplanned true true hq he ho hm
    obtain ⟨a, ha⟩ : ∃ a, a = s.advanced true true := ⟨_, rfl⟩
    have hra : a.tray? k = some r := by rw [ha]; exact hr
    have hb := a.recond_eq k .stray .occupied none
    have hkeep := recordsKeptBut_recond a hra .stray .occupied none
    obtain ⟨b, hbe⟩ : ∃ b, b = a.recond k .stray .occupied none := ⟨_, rfl⟩
    have hev : (s.advanced true true).trayEvent (.check k) = work 16 (.place own) b := by
      rw [hbe]
      refine (State.checkEvent_eq (s := s.advanced true true) hmap hr).trans ?_
      rw [ha]
      simp only [State.checkAs, State.checkOccupied, hc]
      rfl
    rw [hev] at ev
    rw [← hbe] at hb hkeep
    have hbq : b.txq = s.txq := by rw [hb, ha]; rfl
    have hbr : b.rep = s.rep := by rw [hb, ha]; rfl
    have hbp : b.plans = s.plans := by rw [hb, ha]; rfl
    have hbt : b.table = s.table := by rw [hb, ha]; rfl
    have hben : b.line.enabled = true := by rw [hb, ha]; exact hen
    have htw : b.hasTwin own = s.hasTwin own := State.hasTwin_congr hbq own
    refine ⟨t, h, fun hto => ?_, fun hto hlen hcl hold => ?_,
      fun hto hlen hcl ref sl p hkc hp hee hn hsl hpl hten hal => ?_⟩
    · rw [work_place_twin 15 hben (htw.trans hto)] at ev
      exact ⟨ev.txq.trans hbq, ev.rep.trans hbr, ev.plans.trans hbp⟩
    · obtain ⟨h1, h2, h3⟩ := work_place_dropping 15 hben (htw.trans hto) (by rw [hbq]; exact hlen)
        (hbq.trans hs) hw hcl hold
      exact ⟨ev.txq.trans h1, ev.rep.trans (h2.trans (State.queueReport_rep_congr hbr _)),
        ev.plans.trans (h3.trans hbp)⟩
    · have hop : OwnPlan b ref sl p := OwnPlan.congr ⟨hsl, hpl, hal⟩ hbp
      obtain ⟨d, hd, hso, hx, hyq⟩ := work_place_unclaiming 14 hben (htw.trans hto) (by rw [hbq]; exact hlen)
        (hbq.trans hs) hw hkc hcl hp hee hn hop hten
      have hks : RecordsKeptBut k s b := fun j q hj hqj => hkeep j q hj (by rw [ha]; exact hqj)
      have hco := (hso.claimOut hks hd hbt hbr hyq).appended own
      rw [← hx] at hco
      have := hco.eventEnd ev
      exact ⟨this.txq, this.plan, this.trig, this.rep, this.other⟩
  · obtain ⟨t, h, ev⟩ := exec_trayEvent_unplanned chk lvl hq he ho hm
    have hz : (s.advanced chk lvl).trayEvent (.zoneExit k) = (s.advanced chk lvl).zoneExit k := rfl
    rw [hz] at ev
    refine ⟨t, h, fun hc => ?_, fun ref sl p hkc hp hee hn hsl hpl hten hal => ?_⟩
    · obtain ⟨h1, h2, h3⟩ := State.zoneExit_plain (s := s.advanced chk lvl) hmap hs hw hk hsend hc
      exact ⟨ev.txq.trans h1, ev.rep.trans h2, ev.plans.trans h3⟩
    · have hco := (State.zoneExit_claim (s := s.advanced chk lvl) hmap hs hw hk hsend hkc hp hee hn
        (OwnPlan.congr ⟨hsl, hpl, hal⟩ rfl) hten).eventEnd ev
      rw [List.append_nil]
      exact ⟨hco.txq, hco.plan, hco.trig, hco.rep, hco.other⟩

end Sys2Proof.Machine
end

section
/-! PROOF. Frames heard for a tray this station has claimed (R71 to R74, R80, R83). -/

open Sys2Proof Sys2Proof.Machine

namespace Sys2Proof.Machine

/-! ### Partners that no plan holds -/

/-- The ending of plans leaves a pair of records that no plan holds (R18). -/
structure PairsKept (s t : State) : Prop where
  records : ∀ j q, s.tray? j = some q → q.cond ≠ .own → ∃ q', t.tray? j = some q' ∧ RecordKept q q'
  pairs : ∀ k j a b, s.tray? k = some a → s.tray? j = some b → a.cond ≠ .own → b.cond ≠ .own → a.partner = some j →
    t.tray? k = some a

theorem PairsKept.refl (s : State) : PairsKept s s :=
  ⟨fun _ q h _ => ⟨q, h, .refl q⟩, fun _ _ _ _ h _ _ _ _ => h⟩

theorem PairsKept.trans {s t u : State} (h : PairsKept s t) (k : PairsKept t u) : PairsKept s u where
  records j q hq hc := by
    obtain ⟨q1, h1, k1⟩ := h.records j q hq hc
    obtain ⟨q2, h2, k2⟩ := k.records j q1 h1 (by rw [k1.cond]; exact hc)
    exact ⟨q2, h2, k1.trans k2⟩
  pairs i j a b ha hb hca hcb hp := by
    obtain ⟨b', hb', kb⟩ := h.records j b hb hcb
    exact k.pairs i j a b' (h.pairs i j a b ha hb hca hcb hp) hb' hca (by rw [kb.cond]; exact hcb) hp

theorem PairsKept.of_trays {s t : State} (h : t.trays = s.trays) : PairsKept s t := by
  have e : ∀ j, t.tray? j = s.tray? j := fun j => congrArg (·[j]?) h
  exact ⟨fun j q hq _ => ⟨q, (e j).trans hq, .refl q⟩, fun k _ _ _ ha _ _ _ _ => (e k).trans ha⟩

/-- A record whose partner is another tray is kept whole. -/
theorem State.recond_trayRec_unnamed {s : State} {k j : Nat} {r q : TrayRec} (hr : s.tray? k = some r)
    (hq : s.tray? j = some q) (hj : j ≠ k) (hp : q.partner ≠ some k) (c : Cond) (seen : Seen) (holder : Option Nat) :
    (s.recond k c seen holder).tray? j = some q := by
  by_cases h : r.partner = some j
  · have hu : q.unpair k = q := if_neg hp
    simp [State.recond, hr, h, State.modTray_trayRec, hj.symm, hq, hu]
  · exact (State.recond_trayRec_other hr hj h c seen holder).trans hq

theorem State.giveBack_pairsKept (s : State) (ref : PlanRef) (c : Cond) (i : Nat) :
    PairsKept s (s.giveBack ref c i) where
  records _ _ hq hc := State.giveBack_record hq (.inr fun h => hc h.1)
  pairs k j a b ha hb hca hcb hp := by
    unfold State.giveBack
    split
    · rename_i r hr
      split
      · rename_i ho
        have hne : ∀ {m q}, s.tray? m = some q → q.cond ≠ .own → m ≠ i := fun hm hq e => by
          subst e
          rw [hm, Option.some.injEq] at hr
          exact hq (hr ▸ ho.1)
        refine State.recond_trayRec_unnamed hr ha (hne ha hca) (fun e => hne hb hcb ?_) ..
        exact Option.some.inj (hp.symm.trans e)
      · exact ha
    · exact ha

theorem State.giveBackAll_pairsKept (ref : PlanRef) (c : Cond) (ks : List Nat) (s : State) :
    PairsKept s (s.giveBackAll ref c ks) := by
  induction ks generalizing s with
  | nil => exact .refl s
  | cons k ks ih => exact (s.giveBack_pairsKept ref c k).trans (ih _)

theorem pairsKept_workRel : WorkRel (fun _ => True) PairsKept where
  refl := .refl
  trans := .trans
  drop s i := .of_trays (by rw [State.dropEntry_eq])
  append s e := .of_trays (by rw [State.appendEntry_eq])
  report _ _ := .of_trays rfl
  claim s ref := .of_trays (by rw [State.withdrawClaim_eq])
  miss s e l t _ := .of_trays (by rw [State.countMiss_eq])
  withdraw := trivial
  unplan s l sl p := by
    have h := (s.clearSlot l sl).giveBackAll_pairsKept { lane := l, tag := p.tag } .opened
      (s.namedTrays p.target p.span)
    exact (PairsKept.of_trays (s := s) (t := s.clearSlot l sl) rfl).trans (h.trans (.of_trays rfl))

theorem State.endRef_pairsKept {s : State} {ref : PlanRef} {sl : Slot} (h : s.slotOf? ref.lane ref.tag = some sl)
    (e : PlanEnding) : PairsKept s (s.endRef e ref) := by
  rw [State.endRef_of_slot h]
  exact pairsKept_workRel.endPlan s trivial _ _

/-! ### The plan's end once its tray is marked -/

section
variable {s u x y z t : State} {k : Nat} {ref : PlanRef} {sl : Slot} {p : Plan}

/-- The state in which the plan ends: tray `k` marked, other records of plans but for a partner field, a report. -/
structure HeardMarked (s x : State) (k : Nat) : Prop where
  eq : x = { s with line := x.line, trays := x.trays, rep := x.rep }
  enabled : x.line.enabled = true
  kept : ∀ j q, j ≠ k → s.tray? j = some q → q.cond = .own →
    ∃ q', x.tray? j = some q' ∧ (q' = q ∨ q' = { q with partner := none })

/-- What the frame leaves of a plan it ends (R32, R33, R134). -/
structure HeardEnded (s t : State) (ref : PlanRef) (sl : Slot) (p : Plan) (k : Nat) : Prop where
  plan : t.plan ref.lane sl = none
  trig : t.trig.get ref.lane sl = none
  loop : t.loop = s.loop
  doubt : t.doubt = s.doubt
  misses : (t.lane ref.lane).parcels.map Parcel.misses = (s.lane ref.lane).parcels.map Parcel.misses
  released : p.state ≠ .tentative → t.txq = s.txq ++ [plainEntry .release p.target p.span]
  claim : ∀ older e younger, p.state = .tentative → s.txq = older ++ e :: younger → e.kind.isClaim = true →
    e.plan = some ref → e.phase = .waiting → e.ended = false → (∀ q ∈ older, q.plan ≠ some ref) →
    t.txq = older ++ younger
  other : ∀ j ∈ s.namedTrays p.target p.span, j ≠ k → ∀ q, s.tray? j = some q → q.cond = .own → q.plan = some ref →
    t.tray? j = some { cond := .opened, seen := q.seen, holder := none, partner := none, plan := none }

theorem HeardMarked.ownPlan (h : HeardMarked s x k) (hp : OwnPlan s ref sl p) : OwnPlan x ref sl p :=
  hp.congr (by rw [h.eq])

theorem HeardMarked.soleEnded (h : HeardMarked s x k) (hp : OwnPlan s ref sl p) {e : PlanEnding} (hne : e ≠ .miss)
    (hlen : s.txq.length < 8) (htw : s.hasTwin (plainEntry .release p.target p.span) = false) :
    SoleEnded x (x.endRef e ref) ref sl p := by
  have hq : x.txq = s.txq := by rw [h.eq]
  exact endRef_soleEnded (h.ownPlan hp) hne fun _ =>
    ⟨h.enabled, (State.hasTwin_congr hq _).trans htw, by rw [hq]; exact hlen⟩

theorem HeardMarked.ended (h : HeardMarked s x k) (hs : SoleEnded x y ref sl p)
    (hz : z = { y with rep := z.rep }) (e : EventEnd z t) : HeardEnded s t ref sl p k := by
  have hx := h.eq
  have hq : x.txq = s.txq := by rw [hx]
  have hzq : t.txq = y.txq := e.txq.trans (by rw [hz])
  have hzr : ∀ j, t.tray? j = y.tray? j := fun j => (e.tray j).trans (by rw [hz]; rfl)
  have hzl : z.lane ref.lane = y.lane ref.lane := by rw [hz]; rfl
  refine ⟨(e.plan ref.lane sl).trans (Eq.trans (by rw [hz]; rfl) hs.plan),
    (congrArg (Four.get · ref.lane sl) e.trig).trans (Eq.trans (by rw [hz]) hs.trig),
    e.loop.trans (Eq.trans (by rw [hz]) (hs.work.loop.trans (by rw [hx]))),
    e.doubt.trans (Eq.trans (by rw [hz]) (hs.work.doubt.trans (by rw [hx]))), ?_, fun ht => ?_,
    fun older q younger ht hsq hk hp hw hee hold => ?_, fun j hj hjk q hqj ho hp => ?_⟩
  · refine (hs.misses (u := t) (l := ref.lane) (by rw [← hzl]; exact e.lanes ref.lane)).trans ?_
    rw [hx]
    rfl
  · rw [hzq, hs.released ht, hq]
  · exact hzq.trans (hs.claim older q younger ht (hq.trans hsq) hk hp hw hee hold)
  · obtain ⟨q', hq', e'⟩ := h.kept j q hjk hqj ho
    have hj' : j ∈ x.namedTrays p.target p.span := by
      rw [State.namedTrays_congr (s := s) (by rw [hx])]
      exact hj
    have hc : q'.cond = q.cond ∧ q'.plan = q.plan ∧ q'.seen = q.seen := by
      rcases e' with e' | e' <;> rw [e'] <;> exact ⟨rfl, rfl, rfl⟩
    have := hs.own j hj' q' hq' (hc.1.trans ho) (hc.2.1.trans hp)
    rw [hc.2.2] at this
    exact (hzr j).trans this

/-- The state at the end found of the frame: the receiver alone has moved. -/
structure FrameTaken (s u : State) : Prop where
  eq : u = { s with line := u.line }
  enabled : u.line.enabled = true

theorem heardMarked_recond (h : FrameTaken s u) {r : TrayRec} (hr : u.tray? k = some r) (c : Cond) (seen : Seen)
    (holder : Option Nat) : HeardMarked s (u.recond k c seen holder) k where
  eq := by rw [State.recond_eq, h.eq]
  enabled := by rw [State.recond_eq]; exact h.enabled
  kept j q hj hq _ := recordsKeptBut_recond u hr c seen holder j q hj (by rw [h.eq]; exact hq)

theorem HeardMarked.report (h : HeardMarked s x k) (e : Report) : HeardMarked s (x.queueReport e) k :=
  ⟨by rw [State.queueReport, h.eq]; rfl, h.enabled, h.kept⟩

end

/-! ### The frames applied -/

section
variable {u : State} {f : FrameData} {r q : TrayRec} {ref : PlanRef} {sl : Slot} {p : Plan}

theorem State.loseRace_own (hc : r.cond = .own) (hr : r.plan = some ref) (s : State) :
    s.loseRace (some r) = s.endRef .withdraw ref := by
  simp only [State.loseRace, hc, if_true]
  exact s.endPlanOf_eq hr _

theorem State.claimable_own (hc : r.cond = .own) (h : OwnPlan u ref sl p) (hr : r.plan = some ref) :
    u.claimable r = true ↔ p.state = .tentative := by
  simp [State.claimable, hc, h.planStateOf? hr]

theorem State.claimable_congr {v : State} {r' : TrayRec} (hp : v.plans = u.plans) (hc : r'.cond = r.cond)
    (hr : r'.plan = r.plan) : v.claimable r' = u.claimable r := by
  have h : v.planStateOf? r' = u.planStateOf? r := by
    simp only [State.planStateOf?, hr]
    split
    · simp only [State.planOf?, State.slotOf?_congr hp, State.plan, hp]
    · rfl
  rw [State.claimable, State.claimable, hc, h]

theorem State.refusesSpan_of_claimable (h : u.claimable r = true) : u.refusesSpan r = false := by
  rw [State.claimable, Bool.or_eq_true, Bool.and_eq_true, beq_iff_eq, beq_iff_eq, beq_iff_eq] at h
  rcases h with h | ⟨h, ht⟩
  · simp [State.refusesSpan, h]
  · simp [State.refusesSpan, h, ht]

/-- R71: a CLAIM for the tray of a TENTATIVE plan. -/
theorem State.applyClaim_tentative (hs : f.span = .one) (hk : u.tray? f.tray = some r) (hc : r.cond = .own)
    (h : OwnPlan u ref sl p) (hr : r.plan = some ref) (ht : p.state = .tentative) :
    u.applyClaim f = (u.recond f.tray (u.heldCond f.location) r.seen (some f.station)).endRef .withdraw ref := by
  have hcl := (State.claimable_own hc h hr).2 ht
  simp only [State.applyClaim, hs, hk, hcl, if_true]
  rw [State.loseRace_own hc hr, State.holdRecord_of_claimable hk hcl]

/-- R72: a CLAIM for the tray of a plan CLAIMED or LAUNCHED. -/
theorem State.applyClaim_placed (hs : f.span = .one) (hk : u.tray? f.tray = some r) (hc : r.cond = .own)
    (h : OwnPlan u ref sl p) (hr : r.plan = some ref) (ht : p.state ≠ .tentative) : u.applyClaim f = u := by
  have hcl : u.claimable r ≠ true := fun e => ht ((State.claimable_own hc h hr).1 e)
  simp only [State.applyClaim, hs, hk, hcl, if_false, Bool.false_eq_true]

/-- R73, R74: a span CLAIM of two records that may both be taken. -/
theorem State.applyClaim_two (hs : f.span = .two) (hk : u.tray? f.tray = some r)
    (hq : u.tray? (u.nextTray f.tray) = some q) (hj : u.nextTray f.tray ≠ f.tray) (hc : u.claimable r = true)
    (hcq : u.claimable q = true) :
    u.applyClaim f = ((((u.recond f.tray (u.heldCond f.location) r.seen (some f.station)).recond
      (u.nextTray f.tray) (u.heldCond f.location) q.seen (some f.station)).pairUp f.tray
        (u.nextTray f.tray)).loseRace (some r)).loseRace (some q) := by
  obtain ⟨q', hq', e⟩ := State.recond_trayRec_kept hk hq hj (u.heldCond f.location) r.seen (some f.station)
  have he : q'.cond = q.cond ∧ q'.plan = q.plan ∧ q'.seen = q.seen := by
    rcases e with e | e <;> rw [e] <;> exact ⟨rfl, rfl, rfl⟩
  have hu := u.recond_eq f.tray (u.heldCond f.location) r.seen (some f.station)
  have hut : (u.recond f.tray (u.heldCond f.location) r.seen (some f.station)).table = u.table := by rw [hu]
  have h2 : (u.recond f.tray (u.heldCond f.location) r.seen (some f.station)).holdRecord f (u.nextTray f.tray) =
      (u.recond f.tray (u.heldCond f.location) r.seen (some f.station)).recond (u.nextTray f.tray)
        (u.heldCond f.location) q.seen (some f.station) := by
    rw [State.holdRecord_of_claimable hq' ((State.claimable_congr (by rw [hu]) he.1 he.2.1).trans hcq), he.2.2,
      State.heldCond_congr hut]
  simp only [State.applyClaim, hs, hk, hq, State.refusesSpan_of_claimable hc, State.refusesSpan_of_claimable hcq, hc,
    hcq, Bool.or_self, Bool.false_eq_true, if_false, Bool.and_self, if_true]
  rw [State.holdRecord_of_claimable hk hc, h2]

theorem State.takenRecord_unlaunched {k : Nat} (hk : u.tray? k = some r) (hc : r.cond = .own)
    (h : OwnPlan u ref sl p) (hr : r.plan = some ref) (ht : p.state ≠ .launched) (c : Cond) :
    u.takenRecord c f k = (u.recond k c r.seen (some f.station)).endRef .abandon ref := by
  have hps : u.planStateOf? r ≠ some .launched := by
    rw [h.planStateOf? hr, ne_eq, Option.some.injEq]
    exact ht
  simp only [State.takenRecord, hk, hc, if_neg hps]
  exact State.endPlanOf_eq _ hr _

theorem State.takenRecord_launched {k : Nat} (hk : u.tray? k = some r) (hc : r.cond = .own)
    (h : OwnPlan u ref sl p) (hr : r.plan = some ref) (ht : p.state = .launched) (c : Cond) :
    u.takenRecord c f k = (u.markDouble r).queueReport (.mismatch k .doubleLoad) := by
  simp only [State.takenRecord, hk, hc, h.planStateOf? hr, ht, if_true]

theorem State.defectRecord_own {k : Nat} (hk : u.tray? k = some r) (hc : r.cond = .own)
    (h : OwnPlan u ref sl p) (hr : r.plan = some ref) :
    u.defectRecord k =
      if p.state = .launched then
        (((u.recond k .defective r.seen none).queueReport (.defect k .heard)).endRef .abandon ref).queueReport
          (.mismatch k .tiltedTarget)
      else ((u.recond k .defective r.seen none).queueReport (.defect k .heard)).endRef .abandon ref := by
  have hd : r.cond ≠ .defective := by rw [hc]; decide
  simp only [State.defectRecord, hk, if_neg hd, if_pos hc, h.planStateOf? hr, State.endPlanOf_eq _ hr,
    Option.some.injEq]

end

/-! ### A span CLAIM that takes both trays -/

theorem State.heldCond_ne_own (s : State) (x : Nat) : s.heldCond x ≠ .own := by
  unfold State.heldCond
  split <;> decide

theorem State.traysAlone_trans {s t u : State} (h : t = { s with trays := t.trays })
    (k : u = { t with trays := u.trays }) : u = { s with trays := u.trays } :=
  k.trans (by rw [h])

/-- R68, R73: two records held and made partners; another keeps all but its partner field. -/
theorem State.heldPair {u : State} {k j : Nat} {r q : TrayRec} (hk : u.tray? k = some r) (hq : u.tray? j = some q)
    (hj : j ≠ k) (c : Cond) (st : Nat) :
    let x := ((u.recond k c r.seen (some st)).recond j c q.seen (some st)).pairUp k j
    x = { u with trays := x.trays } ∧
      x.tray? k = some { cond := c, seen := r.seen, holder := some st, partner := some j, plan := none } ∧
      x.tray? j = some { cond := c, seen := q.seen, holder := some st, partner := some k, plan := none } ∧
      ∀ m v, m ≠ k → m ≠ j → u.tray? m = some v →
        ∃ v', x.tray? m = some v' ∧ (v' = v ∨ v' = { v with partner := none }) := by
  intro x
  have h1 := u.recond_eq k c r.seen (some st)
  have h2 := (u.recond k c r.seen (some st)).recond_eq j c q.seen (some st)
  have hx : x = { u with trays := x.trays } :=
    State.traysAlone_trans (State.traysAlone_trans h1 h2) (State.pairUp_eq _ _ _)
  obtain ⟨ha, hb⟩ := State.recond_two hk hq hj c c r.seen q.seen (some st) (some st)
  obtain ⟨hxk, hxj⟩ := State.pairUp_trayRecs hj ha hb
  refine ⟨hx, hxk, hxj, fun m v hm hmj hv => ?_⟩
  obtain ⟨v1, hv1, e1⟩ := State.recond_trayRec_kept hk hv hm c r.seen (some st)
  obtain ⟨q1, hq1, -⟩ := State.recond_trayRec_kept hk hq hj c r.seen (some st)
  obtain ⟨v2, hv2, e2⟩ := State.recond_trayRec_kept hq1 hv1 hmj c q.seen (some st)
  refine ⟨v2, ?_, ?_⟩
  · show (State.pairUp _ k j).tray? m = some v2
    rw [State.pairUp, State.modTray_trayRec, if_neg (Ne.symm hmj), State.modTray_trayRec, if_neg (Ne.symm hm), hv2]
  · rcases e1 with rfl | rfl
    · exact e2
    · exact .inr (e2.elim id id)

section
variable {s u x : State} {k j : Nat} {ref ref' : PlanRef} {sl sl' : Slot} {p p' : Plan} {a b : TrayRec}

/-- The ending leaves a pair held, which no plan holds. -/
theorem PairsKept.both (h : PairsKept s x) (ha : s.tray? k = some a) (hb : s.tray? j = some b)
    (hca : a.cond ≠ .own) (hcb : b.cond ≠ .own) (hp : a.partner = some j) (hq : b.partner = some k) :
    x.tray? k = some a ∧ x.tray? j = some b :=
  ⟨h.pairs k j a b ha hb hca hcb hp, h.pairs j k b a hb ha hcb hca hq⟩

theorem State.endRef_tentative_plans (h : OwnPlan s ref sl p) (ht : p.state = .tentative) :
    (s.endRef .withdraw ref).plans = s.plans.set ref.lane sl none := by
  rw [State.endRef_of_slot h.slot, State.endPlan_tentative h.plan h.alone ht, State.countMiss_of_ne (by decide),
    State.withdrawClaim_eq, State.unplan_eq]

/-- The other lane's plan is as it was. -/
theorem OwnPlan.after_other (h' : OwnPlan s ref' sl' p') (h : OwnPlan s ref sl p) (ht : p.state = .tentative)
    (hl : ref'.lane ≠ ref.lane) : OwnPlan (s.endRef .withdraw ref) ref' sl' p' := by
  have e : ∀ m, (s.endRef .withdraw ref).plan ref'.lane m = s.plan ref'.lane m := fun m =>
    (congrArg (Four.get · ref'.lane m) (State.endRef_tentative_plans h ht)).trans
      (s.plans.get_set_ne none fun hc => hl (congrArg Prod.fst hc))
  refine ⟨Eq.trans ?_ h'.slot, (e sl').trans h'.plan, (e _).trans h'.alone⟩
  simp only [State.slotOf?, e]

end

/-! ### The event of a frame heard -/

/-- A frame heard by a receiver without a mark, where nothing is planned anew. -/
theorem exec_heard_unplanned {c : Instr} {f : FrameData} {s : State} (h : heardFrame c = some f)
    (hr : s.pins.rstLow = false) (hh : s.hears = true) (hf : s.line.rxFault = false) (ho : s.table.station = .online)
    (hm : s.mayPlan = false) (hj : s.fieldReject f = none) :
    ∃ u t, FrameTaken s u ∧ exec c s = .next t ∧ EventEnd (u.applyFrame f) t := by
  have hen : s.line.enabled = true := by
    rw [State.hears, Bool.and_eq_true] at hh
    exact hh.1
  have w := (s.frameEnded f).applyFrame_planWork f
  have hmv : ((s.frameEnded f).applyFrame f).mayPlan = false := by
    have h : ((s.frameEnded f).applyFrame f).mayPlan = (s.frameEnded f).mayPlan := State.mayPlan_congr w.loop w.table
    exact h.trans hm
  have hst : ((s.frameEnded f).applyFrame f).table.station ≠ .leaving := by
    rw [w.table]
    exact fun e => absurd (ho.symm.trans e) (by decide)
  refine ⟨s.frameEnded f, _, ⟨rfl, hen⟩, exec_heard_applied h hr hh hf hj, ?_⟩
  exact State.settle_end (.inr (.inl hmv)) (State.leavesNothing_of_not_leaving hst _ _)

/-- Settles O31: each kind of frame on a record of this station's, by the state of its plan. -/
theorem heardFrameMeetsOwnRecord : Obligations.HeardFrameMeetsOwnRecord := by
  unfold Obligations.HeardFrameMeetsOwnRecord
  intro s st x k r ref sl p hr hh hf ho hm hj hk hown hplan hslot hp halone hlen htw c ahead ended loads
  have hop : OwnPlan s ref sl p := ⟨hslot, hp, halone⟩
  have hmap : s.mapInUse = true := by simp [State.mapInUse, ho]
  have hx : ∀ i kind sp, heardFrame i = some { kind, station := st, location := x, tray := k, span := sp } →
      ∃ u t, FrameTaken s u ∧ (∀ j, u.tray? j = s.tray? j) ∧ OwnPlan u ref sl p ∧ u.table = s.table ∧
        exec i s = .next t ∧
        EventEnd (u.applyFrame { kind, station := st, location := x, tray := k, span := sp }) t := fun i kind sp h => by
    obtain ⟨u, t, hu, he, ev⟩ := exec_heard_unplanned h hr hh hf ho hm hj
    exact ⟨u, t, hu, fun j => by rw [hu.eq]; rfl, hop.congr (by rw [hu.eq]), by rw [hu.eq], he, ev⟩
  have hheld : ∀ {u : State}, u.table = s.table → u.heldCond x = if ahead then .heldAhead else .heldBehind :=
    fun h => (State.heldCond_congr h x).trans (s.heldCond_eq x)
  have hmapu : ∀ {u : State}, u.table = s.table → u.mapInUse = true := fun h => by
    rw [State.mapInUse, h]
    exact hmap
  have hends : ∀ {t : State}, HeardEnded s t ref sl p k → ended t := fun h =>
    ⟨h.plan, h.trig, h.loop, h.doubt, h.misses, h.released, h.claim, h.other⟩
  have hkept : ∀ {u t : State}, FrameTaken s u → EventEnd u t →
      t.trays = s.trays ∧ t.plans = s.plans ∧ t.txq = s.txq ∧ t.rep = s.rep := fun hu ev =>
    ⟨ev.trays.trans (by rw [hu.eq]), ev.plans.trans (by rw [hu.eq]), ev.txq.trans (by rw [hu.eq]),
      ev.rep.trans (by rw [hu.eq])⟩
  have hload : ∀ i cond, loads i cond → ∃ u t f, FrameTaken s u ∧ (∀ j, u.tray? j = s.tray? j) ∧
      OwnPlan u ref sl p ∧ exec i s = .next t ∧ f.tray = k ∧ f.station = st ∧ f.span = .one ∧
      ((ahead ∧ EventEnd (u.takenRecord cond f k) t) ∨ (¬ ahead ∧ EventEnd u t)) := fun i cond hl => by
    obtain ⟨kind, hi, hap⟩ : ∃ kind, heardFrame i =
        some { kind, station := st, location := x, tray := k, span := .one } ∧
        ∀ u : State, u.mapInUse = true → u.applyFrame { kind, station := st, location := x, tray := k, span := .one } =
          u.applyTaken cond { kind, station := st, location := x, tray := k, span := .one } := by
      rcases hl with ⟨⟨chute, double, rfl⟩, rfl⟩ | ⟨rfl, rfl⟩
      · exact ⟨_, rfl, fun u hu => State.applyFrame_loaded hu rfl⟩
      · exact ⟨_, rfl, fun u hu => State.applyFrame_occupied hu rfl⟩
    obtain ⟨u, t, hu, htr, hou, htab, he, ev⟩ := hx i kind .one hi
    rw [hap u (hmapu htab)] at ev
    have hz : ∀ y, u.zoneOffset y = s.zoneOffset y ∧ u.cfgX = s.cfgX := fun y => by
      rw [hu.eq]
      exact ⟨rfl, rfl⟩
    refine ⟨u, t, { kind, station := st, location := x, tray := k, span := .one }, hu, htr, hou, he, rfl, rfl, rfl, ?_⟩
    by_cases ha : ahead
    · rw [State.applyTaken_one (by rw [(hz x).1, (hz x).2, (hz s.cfgX).1]; exact ha) rfl] at ev
      exact .inl ⟨ha, ev⟩
    · rw [State.applyTaken_of_behind (by
        rw [(hz x).1, (hz x).2, (hz s.cfgX).1]
        exact Nat.lt_of_not_le ha)] at ev
      exact .inr ⟨ha, ev⟩
  refine ⟨fun lane ht => ?_, ?_, fun lane ht => ?_, fun i cond hl ha ht => ?_, fun i cond hl ha ht => ?_,
    fun i cond hl ha => ?_, ?_⟩
  · obtain ⟨u, t, hu, htr, hou, htab, he, ev⟩ := hx (.claimHeard st x k .one lane) (.claim lane) .one rfl
    have hku := (htr k).trans hk
    rw [State.applyFrame_claim (hmapu htab) rfl, State.applyClaim_tentative rfl hku hown hou hplan ht] at ev
    dsimp only at ev
    rw [hheld htab] at ev
    have hmk := heardMarked_recond hu hku (if ahead then .heldAhead else .heldBehind) r.seen (some st)
    have hso := hmk.soleEnded hop (e := .withdraw) (by decide) hlen htw
    have hself := State.recond_trayRec_self hku (if ahead then .heldAhead else .heldBehind) r.seen (some st)
    refine ⟨t, he, hends (hmk.ended hso rfl ev), ev.rep.trans (hso.rep.trans ?_), (ev.tray k).trans ?_⟩
    · rw [State.recond_eq, hu.eq]
    · exact hso.tray_self hself (by dsimp only; split <;> decide) rfl
  · intro lane q ht hq hne both
    obtain ⟨u, t, hu, htr, hou, htab, he, ev⟩ := hx (.claimHeard st x k .two lane) (.claim lane) .two rfl
    have hku := (htr k).trans hk
    have hnx : u.nextTray k = s.nextTray k := by
      rw [hu.eq]
      rfl
    have hqu : u.tray? (u.nextTray k) = some q := (htr _).trans (hnx ▸ hq)
    have hcl := (State.claimable_own hown hou hplan).2 ht
    obtain ⟨held, hh⟩ : ∃ held : Cond, held = if ahead then .heldAhead else .heldBehind := ⟨_, rfl⟩
    have hhx : u.heldCond x = held := (hheld htab).trans hh.symm
    have hno : held ≠ .own := hhx ▸ u.heldCond_ne_own x
    have hap : u.claimable q = true → _ := fun hcq => (State.applyFrame_claim (hmapu htab) rfl).trans
      (State.applyClaim_two (f := { kind := .claim lane, station := st, location := x, tray := k, span := .two })
        rfl hku hqu (by rw [hnx]; exact hne) hcl hcq)
    dsimp only at hap
    rw [hhx, hnx] at hap
    obtain ⟨hv, hvk, hvj, hvo⟩ := State.heldPair hku (hnx ▸ hqu) hne held st
    generalize ((u.recond k held r.seen (some st)).recond (s.nextTray k) held q.seen (some st)).pairUp k
      (s.nextTray k) = v at hap hv hvk hvj hvo
    have hov : OwnPlan v ref sl p := hou.congr (by rw [hv])
    have hvr : v.rep = s.rep := by rw [hv, hu.eq]
    have hpk := State.endRef_pairsKept hov.slot .withdraw
    have hboth : ∀ {z}, PairsKept v z → EventEnd z t → both t := fun hz ev => by
      obtain ⟨h1, h2⟩ := hz.both hvk hvj hno hno rfl rfl
      exact ⟨(ev.tray k).trans (h1.trans (by rw [hh])), (ev.tray _).trans (h2.trans (by rw [hh]))⟩
    refine ⟨fun hco => ?_, fun ref' sl' p' hco hpl' hlane hsl' hp' hal' ht' => ?_⟩
    · rw [hap (u.claimable_of_opened hco), State.loseRace_own hown hplan,
        State.loseRace_of_not_own (by rw [hco]; nofun)] at ev
      have hmk : HeardMarked s v k := by
        refine ⟨by rw [hv, hu.eq], by rw [hv]; exact hu.enabled, fun m w hm hw hwo => ?_⟩
        refine hvo m w hm (fun e => ?_) ((htr m).trans hw)
        rw [e, hq, Option.some.injEq] at hw
        rw [← hw, hco] at hwo
        exact absurd hwo nofun
      have hso := hmk.soleEnded hop (e := .withdraw) (by decide) hlen htw
      exact ⟨t, he, hends (hmk.ended hso rfl ev), ev.rep.trans (hso.rep.trans hvr), hboth hpk ev⟩
    · have hop' : OwnPlan s ref' sl' p' := ⟨hsl', hp', hal'⟩
      have hou' : OwnPlan u ref' sl' p' := hop'.congr (by rw [hu.eq])
      have hov' : OwnPlan v ref' sl' p' := hou'.congr (by rw [hv])
      have hne' : ref'.lane ≠ ref.lane := by
        rw [hlane]
        cases ref.lane <;> nofun
      rw [hap ((State.claimable_own hco hou' hpl').2 ht'), State.loseRace_own hown hplan,
        State.loseRace_own hco hpl'] at ev
      have hoy := hov'.after_other hov ht hne'
      have h1 := endRef_soleEnded (e := .withdraw) hov (by decide) fun n => absurd ht n
      have h2 := endRef_soleEnded (e := .withdraw) hoy (by decide) fun n => absurd ht' n
      have hpz := hpk.trans (State.endRef_pairsKept hoy.slot .withdraw)
      exact ⟨t, he, (ev.plan ref.lane sl).trans (h2.others.plan_none h1.plan), (ev.plan ref'.lane sl').trans h2.plan,
        (congrArg (Four.get · ref.lane sl) ev.trig).trans (h2.others.trig_none h1.trig),
        (congrArg (Four.get · ref'.lane sl') ev.trig).trans h2.trig, ev.rep.trans (h2.rep.trans (h1.rep.trans hvr)),
        hboth hpz ev⟩
  · obtain ⟨u, t, hu, htr, hou, htab, he, ev⟩ := hx (.claimHeard st x k .one lane) (.claim lane) .one rfl
    have hku := (htr k).trans hk
    rw [State.applyFrame_claim (hmapu htab) rfl, State.applyClaim_placed rfl hku hown hou hplan ht] at ev
    exact ⟨t, he, hkept hu ev⟩
  · obtain ⟨u, t, f, hu, htr, hou, he, hfk, hfs, hfo, h⟩ := hload i cond hl
    have ev := (h.resolve_right fun n => n.1 ha).2
    have hku := (htr k).trans hk
    rw [State.takenRecord_unlaunched hku hown hou hplan ht, hfs] at ev
    have hmk := heardMarked_recond hu hku cond r.seen (some st)
    have hso := hmk.soleEnded hop (e := .abandon) (by decide) hlen htw
    refine ⟨t, he, hends (hmk.ended hso rfl ev), ev.rep.trans (hso.rep.trans ?_), (ev.tray k).trans ?_⟩
    · rw [State.recond_eq, hu.eq]
    · exact hso.tray_self (State.recond_trayRec_self hku cond r.seen (some st))
        (by rcases hl with ⟨-, rfl⟩ | ⟨-, rfl⟩ <;> nofun) rfl
  · obtain ⟨u, t, f, hu, htr, hou, he, hfk, hfs, hfo, h⟩ := hload i cond hl
    have ev := (h.resolve_right fun n => n.1 ha).2
    have hku := (htr k).trans hk
    rw [State.takenRecord_launched hku hown hou hplan ht, State.markDouble_eq hou hplan] at ev
    refine ⟨t, he, ev.trays.trans ?_, (ev.plan ref.lane sl).trans ?_, (ev.lanes ref.lane).launch.trans ?_,
      ev.txq.trans ?_, ev.rep.trans ?_⟩
    · show u.trays = s.trays
      rw [hu.eq]
    · exact Four.get_set_self ..
    · refine (congrArg LaneCtl.launch (Two.get_set_self u.lanes ref.lane _)).trans ?_
      rw [hu.eq]
      rfl
    · show u.txq = s.txq
      rw [hu.eq]
    · exact State.queueReport_rep_congr (by rw [hu.eq]) _
  · obtain ⟨u, t, f, hu, htr, hou, he, hfk, hfs, hfo, h⟩ := hload i cond hl
    exact ⟨t, he, hkept hu (h.resolve_left fun n => ha n.1).2⟩
  · obtain ⟨u, t, hu, htr, hou, htab, he, ev⟩ := hx (.defectHeard st x k .one) .defect .one rfl
    have hku := (htr k).trans hk
    have hap : u.applyFrame { kind := .defect, station := st, location := x, tray := k, span := .one } =
        u.defectRecord k := State.applyFrame_defect (hmapu htab) rfl
    have hmk := (heardMarked_recond hu hku .defective r.seen none).report (.defect k .heard)
    have hso := hmk.soleEnded hop (e := .abandon) (by decide) hlen htw
    have hself := hso.tray_self (k := k) (State.recond_trayRec_self hku .defective r.seen none) nofun rfl
    have hlaunch := (hso.lanes ref.lane).launch
    have hyr : (((u.recond k .defective r.seen none).queueReport (.defect k .heard)).endRef .abandon ref).rep =
        (s.queueReport (.defect k .heard)).rep := by
      refine hso.rep.trans (State.queueReport_rep_congr ?_ _)
      rw [State.recond_eq, hu.eq]
    have hxl : ((u.recond k .defective r.seen none).queueReport (.defect k .heard)).lane ref.lane =
        s.lane ref.lane := by
      rw [State.recond_eq, hu.eq]
      rfl
    rw [hap, State.defectRecord_own hku hown hou hplan] at ev
    rw [hxl] at hlaunch
    generalize ((u.recond k .defective r.seen none).queueReport (.defect k .heard)).endRef .abandon ref = y
      at ev hso hself hlaunch hyr
    obtain ⟨z, hz⟩ : ∃ z, z = if p.state = .launched then y.queueReport (.mismatch k .tiltedTarget) else y := ⟨_, rfl⟩
    have hzy : z = { y with rep := z.rep } := by
      rw [hz]
      split <;> rfl
    rw [← hz] at ev
    refine ⟨t, he, hends (hmk.ended hso hzy ev), (ev.lanes ref.lane).launch.trans (Eq.trans (by rw [hzy]; rfl) hlaunch),
      (ev.tray k).trans (Eq.trans (by rw [hzy]; rfl) hself), ev.rep.trans ?_⟩
    rw [hz]
    split
    · exact State.queueReport_rep_congr hyr _
    · exact hyr

end Sys2Proof.Machine
end
